-- ==== Sys2Proof/Word.lean ====
section
/-! DEFINITION. The word and register-number types of "Table e 1".

`00_scope.md` R4 (XLEN = WORD = 16, NREGS = 16) and R5, R6: every register, scratchpad cell, port datum, literal and
program word is a 16-bit pattern. -/

namespace Sys2Proof

/-- A 16-bit pattern (`00_scope.md` R4, R6): a register value, a program word, a scratchpad cell, a port number, a port
datum, a literal or a program address (PC_WIDTH is at most 16). -/
abbrev Word := BitVec 16

/-- One byte, of which the machine has none: only a host's image file is made of bytes (`20_memory.md` R51). -/
abbrev Byte := BitVec 8

/-- The number of a general register, 0 to 15, written r0 to rF (`10_state.md` R20). -/
abbrev Reg := Fin 16

end Sys2Proof
end

