-- ==== Sys2Proof/Machine/Flags.lean ====
section
/-! DEFINITION. Every computation of a result and its flags.

`40_arithmetic.md` R120, `41_logical.md` R140, `42_shift_rotate.md` R160. Operands are read as unsigned numbers,
computed exactly and narrowed at the end (`00_scope.md` R6). -/

namespace Sys2Proof.Machine

/-- A 16-bit result with the ZERO and CARRY it gives. -/
structure AluResult where
  value : Word
  zero : Bool
  carry : Bool
deriving DecidableEq, Repr

/-- ZERO depends on the 16-bit result alone: 1 when it is 0 (`40_arithmetic.md` R120, `41_logical.md` R140,
`42_shift_rotate.md` R160). -/
def zeroOf (v : Word) : Bool := v == 0

/-- `t = a + b + c`: result `t mod 65536`, CARRY `t[16]` (`40_arithmetic.md` R120, D8). -/
def addResult (a b : Word) (c : Bool) : AluResult :=
  let t : Nat := a.toNat + b.toNat + c.toNat
  let v : Word := BitVec.ofNat 16 t
  ⟨v, zeroOf v, t.testBit 16⟩

/-- `t = a - b - c` in the integers: result `t mod 65536`, CARRY 1 when `t < 0`, a borrow (`40_arithmetic.md` R120,
D9). -/
def subResult (a b : Word) (c : Bool) : AluResult :=
  let t : Int := (a.toNat : Int) - (b.toNat : Int) - (c.toNat : Int)
  let v : Word := BitVec.ofInt 16 t
  ⟨v, zeroOf v, decide (t < 0)⟩

/-- The comparison keeps no result: ZERO when equal, CARRY when less, unsigned (`40_arithmetic.md` R118, R119). The value
stands for the register it leaves as it is. -/
def compResult (a b : Word) : AluResult := ⟨a, a == b, decide (a.toNat < b.toNat)⟩

/-- AND, OR and XOR: ZERO from the result, CARRY 0 (`41_logical.md` R140, D10; log 13). -/
def logicResult (v : Word) : AluResult := ⟨v, zeroOf v, false⟩

/-- `parity(v)`: the exclusive OR of the 16 bits (`00_scope.md` R7, `41_logical.md` R138, D11). -/
def parity (v : Word) : Bool := (List.range 16).foldl (fun p i => p ^^ v.getLsbD i) false

/-- TEST: ZERO from the result, CARRY its parity (`41_logical.md` R138, R139). -/
def testResult (v : Word) : AluResult := ⟨v, zeroOf v, parity v⟩

/-- One place to the left, `{a[14:0], fill}`; CARRY is old bit 15 (`42_shift_rotate.md` R160, D12). -/
def shiftLeft (a : Word) (fill : Bool) : AluResult :=
  let v : Word := a.extractLsb' 0 15 ++ BitVec.ofBool fill
  ⟨v, zeroOf v, a.getLsbD 15⟩

/-- One place to the right, `{fill, a[15:1]}`; CARRY is old bit 0 (`42_shift_rotate.md` R160, D12). -/
def shiftRight (a : Word) (fill : Bool) : AluResult :=
  let v : Word := BitVec.ofBool fill ++ a.extractLsb' 1 15
  ⟨v, zeroOf v, a.getLsbD 0⟩

end Sys2Proof.Machine
end

