-- ==== Sys2Proof/Config.lean ====
section
/-! DEFINITION. The parameters of the hardware and the free values of the environment.

`00_scope.md` R4 lists the parameters and marks OPEN those no source fixes; R257 of `60_exceptions.md` makes them
arguments of the model. They stand in the field `config` of `State`, so that every statement about all states is a
statement about all their values. What is fixed is a definition here. -/

namespace Sys2Proof

/-- HOST_BYTE_ORDER (`00_scope.md` R4, `20_memory.md` R51): which byte of a word comes first when a host stores an
image as bytes. No instruction reads it. -/
inductive ByteOrder where
  | big
  | little
deriving DecidableEq, Repr

/-- The OPEN parameters of `00_scope.md` R4. -/
structure Config where
  /-- PC_WIDTH: the width of the program counter and of a stack entry, 1 to 16. -/
  pcWidth : Nat
  /-- PROG_SIZE: the number of words of program memory, at most 2^PC_WIDTH. -/
  progSize : Nat
  /-- STACK_DEPTH: how many return addresses the stack holds, at least 1. -/
  stackDepth : Nat
  /-- SCRATCH_ADDR_BITS: the scratchpad has 2^SCRATCH_ADDR_BITS cells, 0 to 16. -/
  scratchAddrBits : Nat
  /-- INT_VECTOR: where control goes when an interrupt is taken, below PROG_SIZE. -/
  intVector : Word
  /-- HOST_BYTE_ORDER. -/
  hostByteOrder : ByteOrder
deriving DecidableEq, Repr

/-- The defaults of `00_scope.md` R4 for PC_WIDTH, PROG_SIZE, SCRATCH_ADDR_BITS and HOST_BYTE_ORDER. The spec gives
no default for STACK_DEPTH and INT_VECTOR: 31 is the depth its vectors use and 0x0300 the vector of its section 2.7,
DESIGN CHOICE, unsafe (log 1). -/
def Config.default : Config where
  pcWidth := 16
  progSize := 65536
  stackDepth := 31
  scratchAddrBits := 16
  intVector := 0x0300
  hostByteOrder := .big

/-- RESET_VECTOR (`00_scope.md` R4, `70_reset_and_hazards.md` R271). -/
def resetVector : Word := 0

/-- The value of `irq` at a step for which `Env.irqs` lists none: a free value per step (`10_state.md` R30,
`93_implementation_defined.md` U13). It has no body, so nothing can be proved of it: safe (log 7). -/
opaque Config.freeIrq : Nat → Bool

/-- The value an INPUT of a port yields at a step when `Env.data` lists none: a free value per step and port
(`10_state.md` R29, `93_implementation_defined.md` U14). It has no body: safe (log 8). -/
opaque Config.freePortDatum : Nat → Word → Word

end Sys2Proof
end

