-- ==== Sys2Proof/Machine/State.lean ====
section
/-! DEFINITION. The state of the machine, the reasons a step can stop, and the state after reset.

`10_state.md` R20 to R33; plain data throughout. -/

namespace Sys2Proof.Machine

/-- The model faults of `60_exceptions.md` R241, the complete list. A fault means "the spec does not say what the
hardware does here"; it changes no state (log 15). Each one stops the model where the hardware goes on in a way the spec does not
give, so each is safe. -/
inductive Fault where
  /-- Word 1 fits no row (`30_encoding.md` R87, R88). Raised by the fetch and decode of a step. Safe. -/
  | illegalInstruction
  /-- Word 1 or Word 2 at or beyond PROG_SIZE (`20_memory.md` R52, R61). Raised by the fetch of a step. Safe. -/
  | fetchOutOfRange
  /-- `aaa` with a bit at or above PC_WIDTH (`30_encoding.md` R84). Raised by the decode of a step. Safe. -/
  | addressOutOfRange
  /-- Push with the stack full (`43_control_transfer.md` R186). Raised by a taken CALL and by interrupt entry. Safe. -/
  | stackOverflow
  /-- Pop with the stack empty (`43_control_transfer.md` R186). Raised by a taken RETURN, RETDIS and RETEN. Safe. -/
  | stackUnderflow
  /-- A scratchpad address at or above 2^SCRATCH_ADDR_BITS (`44_io_and_scratchpad.md` R208). Raised by FETCH and STORE.
  Safe. -/
  | scratchpadOutOfRange
  /-- A FETCH from a scratchpad cell that nothing has written (`10_state.md` R33, the fault option; log 4). Safe. -/
  | readOfUnwritten
deriving DecidableEq, Repr

/-- Why a step has no meaning. -/
inductive Refusal where
  /-- An instruction that the model gives no meaning; `exec` raises it by name. No arm does: every row of the table has
  its meaning. Safe. -/
  | notModelled (mnemonic : String)
deriving DecidableEq, Repr

/-- One event of the port log: `(in, p, v)` or `(out, p, v)` (`10_state.md` R29). -/
inductive PortEvent where
  | input (port datum : Word)
  | output (port datum : Word)
deriving DecidableEq, Repr

/-- A memory of 16-bit cells, the smallest thing an instruction addresses (`20_memory.md` R50, R51): pairs of an address
and a word in the one canonical form of `Memory.wf`. -/
abbrev Memory := List (Nat × Word)

/-- The environment of a run, the MODEL's own field (`60_exceptions.md` R257; log 7, 8, 9): what it presents next. -/
structure Env where
  /-- `irq` at the coming steps, nearest first; past the end, `Config.freeIrq`. -/
  irqs : List Bool
  /-- The data of the coming executed INPUTs, nearest first; past the end, `Config.freePortDatum`. -/
  data : List Word
  /-- Steps taken; it indexes the free values. -/
  steps : Nat
deriving DecidableEq, Repr

/-- The machine (`10_state.md` section 1). -/
structure State where
  /-- The parameters (`00_scope.md` R4); no step changes them. -/
  config : Config
  /-- r0 to rF (R20). -/
  regs : Vector Word 16
  /-- The program counter, a word address (R21). -/
  pc : Word
  /-- The ZERO flag (R22). -/
  zero : Bool
  /-- The CARRY flag (R23). -/
  carry : Bool
  /-- Interrupt Enable, IE (R24). -/
  ie : Bool
  /-- The entries the subroutine stack holds, TOS first (R25; log 11). -/
  stack : List Word
  /-- SZ, ZERO as saved by interrupt entry (R26). -/
  savedZero : Bool
  /-- SC, CARRY as saved by interrupt entry (R26). -/
  savedCarry : Bool
  /-- The scratchpad RAM (R27). -/
  ram : Memory
  /-- Program memory (R28); no step changes it. -/
  prog : Memory
  /-- The ordered log of port events, oldest first (R29). -/
  portLog : List PortEvent
  /-- The environment (R29, R30), the model's own. -/
  env : Env
deriving DecidableEq, Repr

/-- What a step or a meaning answers. -/
abbrev Result := Host.Outcome State Fault Refusal

/-- What `10_state.md` R32, R33 leave unspecified at reset, and the program (a parameter of the run, R28). -/
structure PowerUp where
  regs : Vector Word 16
  savedZero : Bool
  savedCarry : Bool
  ram : Memory
  prog : Memory
deriving DecidableEq, Repr

/-- The state after reset for any parameters, any power-up values, any program and any environment
(`10_state.md` R32, `70_reset_and_hazards.md` R270). -/
def State.resetWith (c : Config) (u : PowerUp) (e : Env) : State where
  config := c
  regs := u.regs
  pc := resetVector
  zero := false
  carry := false
  ie := false
  stack := []
  savedZero := u.savedZero
  savedCarry := u.savedCarry
  ram := u.ram
  prog := u.prog
  portLog := []
  env := e

/-- The power-up values `State.reset` takes: every register 0, SZ and SC 0, no scratchpad cell and no program word
listed. DESIGN CHOICE, unsafe (log 2, 3, 5): the spec gives none. -/
def PowerUp.blank : PowerUp where
  regs := Vector.replicate 16 0
  savedZero := false
  savedCarry := false
  ram := []
  prog := []

/-- The environment `State.reset` takes: nothing listed, so `irq` and the port data are free (log 9). -/
def Env.free : Env where
  irqs := []
  data := []
  steps := 0

/-- The machine right after reset, with the parameters of `Config.default`. -/
def State.reset : State := State.resetWith Config.default PowerUp.blank Env.free

end Sys2Proof.Machine
end

