-- ==== Sys2Proof/Machine/Memory.lean ====
section
/-! DEFINITION. The memories: reading and writing cells in canonical form.

Two of the four spaces of `20_memory.md` R50 hold cells. Addresses are natural numbers; the range checks stand with the
operations that make the addresses (`Ops.lean`, `Fetch.lean`). -/

namespace Sys2Proof.Machine

/-- The two spaces that hold cells (`20_memory.md` R50). -/
inductive Space where
  | program
  | scratchpad
deriving DecidableEq, Repr

/-- What an unlisted address reads as: a word of program memory the image does not give is 0x0000, as a blank program
memory is (`70_reset_and_hazards.md` R271; DESIGN CHOICE, unsafe, log 5); a scratchpad cell nothing has written holds no
value (`10_state.md` R33, safe, log 4). -/
def Space.unlisted : Space → Option Word
  | .program => some 0
  | .scratchpad => none

/-- The word listed at an address. -/
def Memory.lookup : Memory → Nat → Option Word
  | [], _ => none
  | (b, v) :: m, a => if a = b then some v else Memory.lookup m a

/-- The memory with a word listed at an address, addresses kept rising. -/
def Memory.insert : Memory → Nat → Word → Memory
  | [], a, v => [(a, v)]
  | (b, w) :: m, a, v =>
    if a < b then (a, v) :: (b, w) :: m
    else if a = b then (a, v) :: m
    else (b, w) :: Memory.insert m a v

/-- The memory with nothing listed at an address. -/
def Memory.erase : Memory → Nat → Memory
  | [], _ => []
  | (b, w) :: m, a => if a = b then Memory.erase m a else (b, w) :: Memory.erase m a

/-- Reading a cell of a space: none when it holds no value. -/
def Memory.read (sp : Space) (m : Memory) (a : Nat) : Option Word :=
  match Memory.lookup m a with
  | some v => some v
  | none => sp.unlisted

/-- Writing a cell of a space; the value an unlisted address reads as is not listed. -/
def Memory.write (sp : Space) (m : Memory) (a : Nat) (v : Word) : Memory :=
  if sp.unlisted = some v then Memory.erase m a else Memory.insert m a v

/-- The canonical form: addresses strictly rising, and no entry equal to what an unlisted address reads as. -/
abbrev Memory.wf (sp : Space) (m : Memory) : Prop :=
  m.Pairwise (fun c d => c.1 < d.1) ∧ ∀ c ∈ m, sp.unlisted ≠ some c.2

end Sys2Proof.Machine
end

