-- ==== Sys2Proof/Machine/Ops.lean ====
section
/-! DEFINITION. The named operations over registers, flags, stack, memory, ports and the interrupt.

The primitives of `00_scope.md` R7, and interrupt entry with the return from it (`60_exceptions.md` R245, R247). Every
meaning is written over these. What the spec decides for itself is followed as written (log 14). -/

namespace Sys2Proof.Machine

/-! ### One update per part of the state -/

/-- `x[i]` (`00_scope.md` R7). -/
def State.reg (s : State) (r : Reg) : Word := s.regs[r]

/-- `x[i] <- v` (`00_scope.md` R7). -/
def State.writeReg (s : State) (r : Reg) (v : Word) : State := { s with regs := s.regs.set r v }

/-- `ZERO <- z; CARRY <- c` (`00_scope.md` R7). -/
def State.setFlags (s : State) (z c : Bool) : State := { s with zero := z, carry := c }

/-- `pc <- t` (`00_scope.md` R7). -/
def State.setPc (s : State) (t : Word) : State := { s with pc := t }

/-- `IE <- b` (`00_scope.md` R7). -/
def State.setIe (s : State) (b : Bool) : State := { s with ie := b }

/-- The stack replaced. -/
def State.setStack (s : State) (k : List Word) : State := { s with stack := k }

/-- `SZ <- z; SC <- c` (`10_state.md` R26). -/
def State.setSaved (s : State) (z c : Bool) : State := { s with savedZero := z, savedCarry := c }

/-- The scratchpad replaced. -/
def State.setRam (s : State) (m : Memory) : State := { s with ram := m }

/-- Program memory replaced; only the loader uses it. -/
def State.setProg (s : State) (m : Memory) : State := { s with prog := m }

/-- One event more at the end of the port log (`10_state.md` R29). -/
def State.logEvent (s : State) (e : PortEvent) : State := { s with portLog := s.portLog ++ [e] }

/-- The environment replaced. -/
def State.setEnv (s : State) (e : Env) : State := { s with env := e }

/-! ### The program counter -/

/-- A program address reduced modulo 2^PC_WIDTH (`10_state.md` R21, D30). -/
def wrapPc (c : Config) (v : Word) : Word := BitVec.ofNat 16 (v.toNat % 2 ^ c.pcWidth)

/-- `(pc + n) mod 2^PC_WIDTH` (`10_state.md` R21). -/
def State.pcPlus (s : State) (n : Nat) : Word := wrapPc s.config (s.pc + BitVec.ofNat 16 n)

/-- `pc <- (pc + len) mod 2^PC_WIDTH`, how an instruction that transfers no control ends (`10_state.md` R21). -/
def State.advance (s : State) (len : Nat) : State := s.setPc (s.pcPlus len)

/-! ### Results -/

/-- `x[X]`, ZERO and CARRY take a result, simultaneously (`00_scope.md` R8). -/
def State.setResult (s : State) (x : Reg) (r : AluResult) : State := (s.writeReg x r.value).setFlags r.zero r.carry

/-- ZERO and CARRY take a result and no register is written (COMP, TEST). -/
def State.setResultFlags (s : State) (r : AluResult) : State := s.setFlags r.zero r.carry

/-! ### The subroutine stack -/

/-- `sp`, the count of entries held (`10_state.md` R25). -/
def State.sp (s : State) : Nat := s.stack.length

/-- `Push(v)`: a full stack is the fault StackOverflow; otherwise `v mod 2^PC_WIDTH` is the new top
(`43_control_transfer.md` R186). -/
def State.push (s : State) (v : Word) : Except Fault State :=
  if s.config.stackDepth ≤ s.sp then .error .stackOverflow
  else .ok (s.setStack (wrapPc s.config v :: s.stack))

/-- `Pop()`: an empty stack is the fault StackUnderflow; otherwise the top entry is yielded and removed
(`43_control_transfer.md` R186). -/
def State.pop (s : State) : Except Fault (Word × State) :=
  match s.stack with
  | [] => .error .stackUnderflow
  | t :: k => .ok (t, s.setStack k)

/-! ### The scratchpad RAM -/

/-- `RamAddr(a)`: the cell's address when it is below 2^SCRATCH_ADDR_BITS, otherwise the fault ScratchpadOutOfRange
(`44_io_and_scratchpad.md` R208). -/
def ramAddr (c : Config) (a : Word) : Except Fault Nat :=
  if a.toNat < 2 ^ c.scratchAddrBits then .ok a.toNat else .error .scratchpadOutOfRange

/-- The value of the scratchpad cell at an address, none when nothing has written it (`10_state.md` R27, R33). -/
def State.cell (s : State) (a : Nat) : Option Word := Memory.read .scratchpad s.ram a

/-- `MemRead(RamAddr(a), 1)` (`44_io_and_scratchpad.md` R204); a cell nothing has written is the fault ReadOfUnwritten
(`10_state.md` R33). -/
def State.ramRead (s : State) (a : Word) : Except Fault Word :=
  match ramAddr s.config a with
  | .error f => .error f
  | .ok n =>
    match s.cell n with
    | none => .error .readOfUnwritten
    | some v => .ok v

/-- `MemWrite(RamAddr(a), 1, v)` (`44_io_and_scratchpad.md` R206). -/
def State.ramWrite (s : State) (a v : Word) : Except Fault State :=
  match ramAddr s.config a with
  | .error f => .error f
  | .ok n => .ok (s.setRam (Memory.write .scratchpad s.ram n v))

/-! ### The ports -/

/-- The datum the environment presents to an INPUT of port `p` executed now (`10_state.md` R29; log 8). -/
def State.portDatum (s : State) (p : Word) : Word :=
  match s.env.data with
  | v :: _ => v
  | [] => Config.freePortDatum s.env.steps p

/-- `PortRead(p)`: yields the environment's datum, consumes it and logs `(in, p, v)` (`10_state.md` R29). -/
def State.portRead (s : State) (p : Word) : Word × State :=
  (s.portDatum p,
    (s.logEvent (.input p (s.portDatum p))).setEnv { s.env with data := s.env.data.tail })

/-- `PortWrite(p, v)`: logs `(out, p, v)` (`10_state.md` R29). -/
def State.portWrite (s : State) (p v : Word) : State := s.logEvent (.output p v)

/-! ### Control transfer -/

/-- JUMP forms: taken, `pc <- aaa`; otherwise the next instruction (`43_control_transfer.md` R170, R171). -/
def jumpIf (taken : Bool) (aaa : Word) (s : State) : Result :=
  if taken then .next (s.setPc aaa) else .next (s.advance 2)

/-- CALL forms: taken, `Push(pc + 1); pc <- aaa`, where `pc + 1` is the address of Word 2; otherwise the next instruction
(`43_control_transfer.md` R170, R176). -/
def callIf (taken : Bool) (aaa : Word) (s : State) : Result :=
  if taken then
    match s.push (s.pcPlus 1) with
    | .error f => .fault f
    | .ok t => .next (t.setPc aaa)
  else .next (s.advance 2)

/-- RETURN forms: taken, `pc <- (Pop() + 1) mod 2^PC_WIDTH`; otherwise the next instruction
(`43_control_transfer.md` R170, R181). -/
def returnIf (taken : Bool) (s : State) : Result :=
  if taken then
    match s.pop with
    | .error f => .fault f
    | .ok (t, s') => .next (s'.setPc (wrapPc s.config (t + 1)))
  else .next (s.advance 1)

/-! ### The interrupt -/

/-- Interrupt entry, the one exception the spec describes: `Push(pc - 1)`, SZ and SC take ZERO and CARRY, `IE <- 0`,
`pc <- INT_VECTOR`, all simultaneously (`60_exceptions.md` R245). -/
def enterInterrupt (s : State) : Result :=
  match s.push (s.pc - 1) with
  | .error f => .fault f
  | .ok t => .next (((t.setSaved s.zero s.carry).setIe false).setPc s.config.intVector)

/-- Return from interrupt: `pc <- (Pop() + 1) mod 2^PC_WIDTH`, ZERO and CARRY take SZ and SC, IE takes `enable`
(`60_exceptions.md` R247). -/
def returnFromInterrupt (enable : Bool) (s : State) : Result :=
  match s.pop with
  | .error f => .fault f
  | .ok (t, s') =>
    .next (((s'.setFlags s.savedZero s.savedCarry).setIe enable).setPc (wrapPc s.config (t + 1)))

end Sys2Proof.Machine
end

