-- ==== Sys2Proof/Machine/Operands.lean ====
section
/-! DEFINITION. The operand forms of `30_encoding.md` R84 and the conditions of `43_control_transfer.md` R170. -/

namespace Sys2Proof.Machine

/-- The second operand of an instruction: rY, or the literal kk, pp of Word 2 (`30_encoding.md` R84). -/
inductive Operand where
  | reg (y : Reg)
  | literal (w : Word)
deriving DecidableEq, Repr

/-- The value of the second operand. As `(rY)` it is the port number or the scratchpad address, the whole 16-bit value
of rY; as pp or kk the literal itself (`30_encoding.md` R84, `44_io_and_scratchpad.md` head). -/
def operandValue (s : State) : Operand → Word
  | .reg y => s.reg y
  | .literal w => w

/-- How many words the instruction has: 1 with rY, 2 with a Word 2 (`30_encoding.md` R80). -/
def operandLength : Operand → Nat
  | .reg _ => 1
  | .literal _ => 2

/-- The suffixes of JUMP, CALL and RETURN (`43_control_transfer.md` R170). -/
inductive Cond where
  | always
  | c
  | nc
  | z
  | nz
deriving DecidableEq, Repr

/-- Whether a condition holds on the flags as the previous instruction left them (`43_control_transfer.md` R170). -/
def condHolds (s : State) : Cond → Bool
  | .always => true
  | .c => s.carry
  | .nc => !s.carry
  | .z => s.zero
  | .nz => !s.zero

/-! ### One shape of meaning per family -/

/-- rX and both flags take a function of rX and the second operand (`40_arithmetic.md` R110 to R117, `41_logical.md` R132
to R137). -/
def resultInto (f : Word → Word → AluResult) (x : Reg) (o : Operand) (s : State) : Result :=
  .next ((s.setResult x (f (s.reg x) (operandValue s o))).advance (operandLength o))

/-- Both flags take a function of rX and the second operand; no register is written (COMP, TEST). -/
def flagsFrom (f : Word → Word → AluResult) (x : Reg) (o : Operand) (s : State) : Result :=
  .next ((s.setResultFlags (f (s.reg x) (operandValue s o))).advance (operandLength o))

/-- rX takes the second operand; no flag is written (`41_logical.md` R130, R131). -/
def loadInto (x : Reg) (o : Operand) (s : State) : Result :=
  .next ((s.writeReg x (operandValue s o)).advance (operandLength o))

/-- rX and both flags take a function of rX and the old CARRY; one word (`42_shift_rotate.md` R160). -/
def shiftInto (f : Word → Bool → AluResult) (x : Reg) (s : State) : Result :=
  .next ((s.setResult x (f (s.reg x) s.carry)).advance 1)

/-- rX takes the datum of the input port that the operand numbers (`44_io_and_scratchpad.md` R200, R201). -/
def inputInto (x : Reg) (o : Operand) (s : State) : Result :=
  match s.portRead (operandValue s o) with
  | (v, t) => .next ((t.writeReg x v).advance (operandLength o))

/-- The output port that the operand numbers is handed rX (`44_io_and_scratchpad.md` R202, R203). -/
def outputFrom (x : Reg) (o : Operand) (s : State) : Result :=
  .next ((s.portWrite (operandValue s o) (s.reg x)).advance (operandLength o))

/-- rX takes the scratchpad cell that the operand addresses (`44_io_and_scratchpad.md` R204, R205). -/
def fetchInto (x : Reg) (o : Operand) (s : State) : Result :=
  match s.ramRead (operandValue s o) with
  | .error f => .fault f
  | .ok v => .next ((s.writeReg x v).advance (operandLength o))

/-- The scratchpad cell that the operand addresses takes rX (`44_io_and_scratchpad.md` R206, R207). -/
def storeFrom (x : Reg) (o : Operand) (s : State) : Result :=
  match s.ramWrite (operandValue s o) (s.reg x) with
  | .error f => .fault f
  | .ok t => .next (t.advance (operandLength o))

end Sys2Proof.Machine
end

