-- ==== Sys2Proof/Machine/Access.lean ====
section
/-! DEFINITION. The port and scratchpad instructions (`44_io_and_scratchpad.md`).

None writes a flag, the stack or interrupt state. -/

namespace Sys2Proof.Machine

/-- INPUT rX, (rY) (R200). `rX <- PORT(rY)`. -/
def execInputInd (x y : Reg) (s : State) : Result := inputInto x (.reg y) s

/-- INPUT rX, pp (R201). `rX <- PORT(pp)`. -/
def execInputDir (x : Reg) (pp : Word) (s : State) : Result := inputInto x (.literal pp) s

/-- OUTPUT rX, (rY) (R202). `PORT(rY) <- rX`. -/
def execOutputInd (x y : Reg) (s : State) : Result := outputFrom x (.reg y) s

/-- OUTPUT rX, pp (R203). `PORT(pp) <- rX`. -/
def execOutputDir (x : Reg) (pp : Word) (s : State) : Result := outputFrom x (.literal pp) s

/-- FETCH rX, kk (R204). `rX <- RAM[kk]`. -/
def execFetchDir (x : Reg) (kk : Word) (s : State) : Result := fetchInto x (.literal kk) s

/-- FETCH rX, (rY) (R205). `rX <- RAM[rY]`. -/
def execFetchInd (x y : Reg) (s : State) : Result := fetchInto x (.reg y) s

/-- STORE rX, kk (R206). `RAM[kk] <- rX`. -/
def execStoreDir (x : Reg) (kk : Word) (s : State) : Result := storeFrom x (.literal kk) s

/-- STORE rX, (rY) (R207). `RAM[rY] <- rX`. -/
def execStoreInd (x y : Reg) (s : State) : Result := storeFrom x (.reg y) s

end Sys2Proof.Machine
end

