-- ==== Sys2Proof/Machine/Arith.lean ====
section
/-! DEFINITION. The arithmetic instructions (`40_arithmetic.md`).

Flags by R120. No stack, port, scratchpad or interrupt state is touched, and none of them faults. -/

namespace Sys2Proof.Machine

/-- ADD rX, kk (R110). `rX <- rX + kk`, flags of the sum. -/
def execAddImm (x : Reg) (kk : Word) (s : State) : Result :=
  resultInto (fun a b => addResult a b false) x (.literal kk) s

/-- ADD rX, rY (R111). `rX <- rX + rY`, flags of the sum. -/
def execAddReg (x y : Reg) (s : State) : Result := resultInto (fun a b => addResult a b false) x (.reg y) s

/-- ADDCY rX, kk (R112). `rX <- rX + kk + CARRY`, flags of the sum. -/
def execAddcyImm (x : Reg) (kk : Word) (s : State) : Result :=
  resultInto (fun a b => addResult a b s.carry) x (.literal kk) s

/-- ADDCY rX, rY (R113). `rX <- rX + rY + CARRY`, flags of the sum. -/
def execAddcyReg (x y : Reg) (s : State) : Result := resultInto (fun a b => addResult a b s.carry) x (.reg y) s

/-- COMP rX, kk (R118). `ZERO <- rX = kk; CARRY <- rX < kk`, unsigned; no register is written. -/
def execCompImm (x : Reg) (kk : Word) (s : State) : Result := flagsFrom compResult x (.literal kk) s

/-- COMP rX, rY (R119). `ZERO <- rX = rY; CARRY <- rX < rY`, unsigned; no register is written. -/
def execCompReg (x y : Reg) (s : State) : Result := flagsFrom compResult x (.reg y) s

/-- SUB rX, kk (R114). `rX <- rX - kk`, CARRY the borrow. -/
def execSubImm (x : Reg) (kk : Word) (s : State) : Result :=
  resultInto (fun a b => subResult a b false) x (.literal kk) s

/-- SUB rX, rY (R115). `rX <- rX - rY`, CARRY the borrow. -/
def execSubReg (x y : Reg) (s : State) : Result := resultInto (fun a b => subResult a b false) x (.reg y) s

/-- SUBC rX, kk (R116). `rX <- rX - kk - CARRY`, CARRY the borrow. -/
def execSubcImm (x : Reg) (kk : Word) (s : State) : Result :=
  resultInto (fun a b => subResult a b s.carry) x (.literal kk) s

/-- SUBC rX, rY (R117). `rX <- rX - rY - CARRY`, CARRY the borrow. -/
def execSubcReg (x y : Reg) (s : State) : Result := resultInto (fun a b => subResult a b s.carry) x (.reg y) s

end Sys2Proof.Machine
end

