-- ==== Sys2Proof/Machine/Control.lean ====
section
/-! DEFINITION. The control-transfer instructions (`43_control_transfer.md`).

Conditions by R170, the stack by R186; no flag, register or memory is written. -/

namespace Sys2Proof.Machine

/-- CALL aaa (R176). Unconditionally `TOS <- PC; PC <- aaa`. -/
def execCall (aaa : Word) (s : State) : Result := callIf (condHolds s .always) aaa s

/-- CALLC aaa (R177). If CARRY `TOS <- PC; PC <- aaa`. -/
def execCallC (aaa : Word) (s : State) : Result := callIf (condHolds s .c) aaa s

/-- CALLNC aaa (R178). If not CARRY `TOS <- PC; PC <- aaa`. -/
def execCallNC (aaa : Word) (s : State) : Result := callIf (condHolds s .nc) aaa s

/-- CALLZ aaa (R179). If ZERO `TOS <- PC; PC <- aaa`. -/
def execCallZ (aaa : Word) (s : State) : Result := callIf (condHolds s .z) aaa s

/-- CALLNZ aaa (R180). If not ZERO `TOS <- PC; PC <- aaa`. -/
def execCallNZ (aaa : Word) (s : State) : Result := callIf (condHolds s .nz) aaa s

/-- JUMP aaa (R171). Unconditionally `PC <- aaa`. -/
def execJump (aaa : Word) (s : State) : Result := jumpIf (condHolds s .always) aaa s

/-- JUMPC aaa (R172). If CARRY `PC <- aaa`. -/
def execJumpC (aaa : Word) (s : State) : Result := jumpIf (condHolds s .c) aaa s

/-- JUMPNC aaa (R173). If not CARRY `PC <- aaa`. -/
def execJumpNC (aaa : Word) (s : State) : Result := jumpIf (condHolds s .nc) aaa s

/-- JUMPZ aaa (R174). If ZERO `PC <- aaa`. -/
def execJumpZ (aaa : Word) (s : State) : Result := jumpIf (condHolds s .z) aaa s

/-- JUMPNZ aaa (R175). If not ZERO `PC <- aaa`. -/
def execJumpNZ (aaa : Word) (s : State) : Result := jumpIf (condHolds s .nz) aaa s

/-- RETURN (R181). Unconditionally `PC <- TOS+1`. -/
def execReturnAlways (s : State) : Result := returnIf (condHolds s .always) s

/-- RETURNC (R182). If CARRY `PC <- TOS+1`. -/
def execReturnC (s : State) : Result := returnIf (condHolds s .c) s

/-- RETURNNC (R183). If not CARRY `PC <- TOS+1`. -/
def execReturnNC (s : State) : Result := returnIf (condHolds s .nc) s

/-- RETURNZ (R184). If ZERO `PC <- TOS+1`. -/
def execReturnZ (s : State) : Result := returnIf (condHolds s .z) s

/-- RETURNNZ (R185). If not ZERO `PC <- TOS+1`. -/
def execReturnNZ (s : State) : Result := returnIf (condHolds s .nz) s

end Sys2Proof.Machine
end

