-- ==== Sys2Proof/Machine/Logic.lean ====
section
/-! DEFINITION. The load and logical instructions (`41_logical.md`).

Flags by R140; LOAD writes none. -/

namespace Sys2Proof.Machine

/-- AND rX, kk (R132). `rX <- rX & kk`, CARRY 0. -/
def execAndImm (x : Reg) (kk : Word) (s : State) : Result :=
  resultInto (fun a b => logicResult (a &&& b)) x (.literal kk) s

/-- AND rX, rY (R133). `rX <- rX & rY`, CARRY 0. -/
def execAndReg (x y : Reg) (s : State) : Result := resultInto (fun a b => logicResult (a &&& b)) x (.reg y) s

/-- LOAD rX, kk (R130). `rX <- kk`; no flag is written. -/
def execLoadImm (x : Reg) (kk : Word) (s : State) : Result := loadInto x (.literal kk) s

/-- LOAD rX, rY (R131). `rX <- rY`; no flag is written. -/
def execLoadReg (x y : Reg) (s : State) : Result := loadInto x (.reg y) s

/-- OR rX, kk (R134). `rX <- rX | kk`, CARRY 0. -/
def execOrImm (x : Reg) (kk : Word) (s : State) : Result :=
  resultInto (fun a b => logicResult (a ||| b)) x (.literal kk) s

/-- OR rX, rY (R135). `rX <- rX | rY`, CARRY 0. -/
def execOrReg (x y : Reg) (s : State) : Result := resultInto (fun a b => logicResult (a ||| b)) x (.reg y) s

/-- TEST rX, kk (R138). `ZERO <- (rX & kk) = 0; CARRY <- parity`; no register is written. -/
def execTestImm (x : Reg) (kk : Word) (s : State) : Result :=
  flagsFrom (fun a b => testResult (a &&& b)) x (.literal kk) s

/-- TEST rX, rY (R139). `ZERO <- (rX & rY) = 0; CARRY <- parity`; no register is written. -/
def execTestReg (x y : Reg) (s : State) : Result := flagsFrom (fun a b => testResult (a &&& b)) x (.reg y) s

/-- XOR rX, kk (R136). `rX <- rX ^ kk`, CARRY 0. -/
def execXorImm (x : Reg) (kk : Word) (s : State) : Result :=
  resultInto (fun a b => logicResult (a ^^^ b)) x (.literal kk) s

/-- XOR rX, rY (R137). `rX <- rX ^ rY`, CARRY 0. -/
def execXorReg (x y : Reg) (s : State) : Result := resultInto (fun a b => logicResult (a ^^^ b)) x (.reg y) s

end Sys2Proof.Machine
end

