-- ==== Sys2Proof/Machine/Shift.lean ====
section
/-! DEFINITION. The shift and rotate instructions (`42_shift_rotate.md`).

One place each; every right-hand side is of the state before the instruction (R160, D12). -/

namespace Sys2Proof.Machine

/-- RL rX (R150). `rX <- {rX[14:0], rX[15]}; CARRY <- rX[15]`. -/
def execRl (x : Reg) (s : State) : Result := shiftInto (fun a _ => shiftLeft a (a.getLsbD 15)) x s

/-- RR rX (R151). `rX <- {rX[0], rX[15:1]}; CARRY <- rX[0]`. -/
def execRr (x : Reg) (s : State) : Result := shiftInto (fun a _ => shiftRight a (a.getLsbD 0)) x s

/-- SL0 rX (R152). `rX <- {rX[14:0], 0}; CARRY <- rX[15]`. -/
def execSl0 (x : Reg) (s : State) : Result := shiftInto (fun a _ => shiftLeft a false) x s

/-- SL1 rX (R153). `rX <- {rX[14:0], 1}; CARRY <- rX[15]`. The table's ZERO `0` is what the result gives: its bit 0 is
1. -/
def execSl1 (x : Reg) (s : State) : Result := shiftInto (fun a _ => shiftLeft a true) x s

/-- SLA rX (R154). `rX <- {rX[14:0], CARRY}; CARRY <- rX[15]`. -/
def execSla (x : Reg) (s : State) : Result := shiftInto (fun a c => shiftLeft a c) x s

/-- SLX rX (R155). `rX <- {rX[14:0], rX[0]}; CARRY <- rX[15]`. -/
def execSlx (x : Reg) (s : State) : Result := shiftInto (fun a _ => shiftLeft a (a.getLsbD 0)) x s

/-- SR0 rX (R156). `rX <- {0, rX[15:1]}; CARRY <- rX[0]`. -/
def execSr0 (x : Reg) (s : State) : Result := shiftInto (fun a _ => shiftRight a false) x s

/-- SR1 rX (R157). `rX <- {1, rX[15:1]}; CARRY <- rX[0]`. ZERO is 0 on every input, since bit 15 of the result is 1.
-/
def execSr1 (x : Reg) (s : State) : Result := shiftInto (fun a _ => shiftRight a true) x s

/-- SRA rX (R158). `rX <- {CARRY, rX[15:1]}; CARRY <- rX[0]`. Not an arithmetic shift: the old CARRY comes in at bit
15. -/
def execSra (x : Reg) (s : State) : Result := shiftInto (fun a c => shiftRight a c) x s

/-- SRX rX (R159). `rX <- {rX[15], rX[15:1]}; CARRY <- rX[0]`. Bit 15 is kept and copied into bit 14; the Function
cell is followed, not the Description's "rX[7]" (`90_conflicts.md` C4). -/
def execSrx (x : Reg) (s : State) : Result := shiftInto (fun a _ => shiftRight a (a.getLsbD 15)) x s

end Sys2Proof.Machine
end

