-- ==== Sys2Proof/Machine/System.lean ====
section
/-! DEFINITION. The system instructions (`45_system.md`). -/

namespace Sys2Proof.Machine

/-- NOP (R220). Only `pc` moves. -/
def execNop (s : State) : Result := .next (s.advance 1)

/-- DISINT (R221). `IE <- 0`. -/
def execDisint (s : State) : Result := .next ((s.setIe false).advance 1)

/-- ENINT (R222). `IE <- 1`. -/
def execEnint (s : State) : Result := .next ((s.setIe true).advance 1)

/-- RETDIS (R223). `PC <- TOS+1`, the flags from SZ and SC, `IE <- 0`. -/
def execRetdis (s : State) : Result := returnFromInterrupt false s

/-- RETEN (R224). `PC <- TOS+1`, the flags from SZ and SC, `IE <- 1`. -/
def execReten (s : State) : Result := returnFromInterrupt true s

end Sys2Proof.Machine
end

