-- ==== Sys2Proof/Syntax.lean ====
section
/-! DEFINITION. The syntax of the 58 instructions of "Table e 1", in the order of the table.

One constructor per row of `spec/opcode_table.json` (`30_encoding.md` R85). `x` and `y` are the register fields X and Y,
`kk`, `pp` and `aaa` the whole Word 2 (R84). A name ending in `Imm` is the kk form, `Reg` the rY form, `Dir` the form
whose address is Word 2 and `Ind` the form whose address is in rY. -/

namespace Sys2Proof

/-- An instruction of the table (`30_encoding.md` R85). -/
inductive Instr where
  /-- NOP (row 0, R220). -/
  | nop
  /-- ADD rX, kk (row 1, R110). -/
  | addImm (x : Reg) (kk : Word)
  /-- ADD rX, rY (row 2, R111). -/
  | addReg (x y : Reg)
  /-- ADDCY rX, kk (row 3, R112). -/
  | addcyImm (x : Reg) (kk : Word)
  /-- ADDCY rX, rY (row 4, R113). -/
  | addcyReg (x y : Reg)
  /-- AND rX, kk (row 5, R132). -/
  | andImm (x : Reg) (kk : Word)
  /-- AND rX, rY (row 6, R133). -/
  | andReg (x y : Reg)
  /-- CALL aaa (row 7, R176). -/
  | call (aaa : Word)
  /-- CALLC aaa (row 8, R177). -/
  | callC (aaa : Word)
  /-- CALLNC aaa (row 9, R178). -/
  | callNC (aaa : Word)
  /-- CALLZ aaa (row 10, R179). -/
  | callZ (aaa : Word)
  /-- CALLNZ aaa (row 11, R180). -/
  | callNZ (aaa : Word)
  /-- COMP rX, kk (row 12, R118). -/
  | compImm (x : Reg) (kk : Word)
  /-- COMP rX, rY (row 13, R119). -/
  | compReg (x y : Reg)
  /-- DISINT (row 14, R221). -/
  | disint
  /-- ENINT (row 15, R222). -/
  | enint
  /-- INPUT rX, (rY) (row 16, R200). -/
  | inputInd (x y : Reg)
  /-- INPUT rX, pp (row 17, R201). -/
  | inputDir (x : Reg) (pp : Word)
  /-- JUMP aaa (row 18, R171). -/
  | jump (aaa : Word)
  /-- JUMPC aaa (row 19, R172). -/
  | jumpC (aaa : Word)
  /-- JUMPNC aaa (row 20, R173). -/
  | jumpNC (aaa : Word)
  /-- JUMPZ aaa (row 21, R174). -/
  | jumpZ (aaa : Word)
  /-- JUMPNZ aaa (row 22, R175). -/
  | jumpNZ (aaa : Word)
  /-- LOAD rX, kk (row 23, R130). -/
  | loadImm (x : Reg) (kk : Word)
  /-- LOAD rX, rY (row 24, R131). -/
  | loadReg (x y : Reg)
  /-- OR rX, kk (row 25, R134). -/
  | orImm (x : Reg) (kk : Word)
  /-- OR rX, rY (row 26, R135). -/
  | orReg (x y : Reg)
  /-- OUTPUT rX, (rY) (row 27, R202). -/
  | outputInd (x y : Reg)
  /-- OUTPUT rX, pp (row 28, R203). -/
  | outputDir (x : Reg) (pp : Word)
  /-- RETURN (row 29, R181). -/
  | returnAlways
  /-- RETURNC (row 30, R182). -/
  | returnC
  /-- RETURNNC (row 31, R183). -/
  | returnNC
  /-- RETURNZ (row 32, R184). -/
  | returnZ
  /-- RETURNNZ (row 33, R185). -/
  | returnNZ
  /-- RETDIS (row 34, R223). -/
  | retdis
  /-- RETEN (row 35, R224). -/
  | reten
  /-- RL rX (row 36, R150). -/
  | rl (x : Reg)
  /-- RR rX (row 37, R151). -/
  | rr (x : Reg)
  /-- SL0 rX (row 38, R152). -/
  | sl0 (x : Reg)
  /-- SL1 rX (row 39, R153). -/
  | sl1 (x : Reg)
  /-- SLA rX (row 40, R154). -/
  | sla (x : Reg)
  /-- SLX rX (row 41, R155). -/
  | slx (x : Reg)
  /-- SR0 rX (row 42, R156). -/
  | sr0 (x : Reg)
  /-- SR1 rX (row 43, R157). -/
  | sr1 (x : Reg)
  /-- SRA rX (row 44, R158). -/
  | sra (x : Reg)
  /-- SRX rX (row 45, R159). -/
  | srx (x : Reg)
  /-- SUB rX, kk (row 46, R114). -/
  | subImm (x : Reg) (kk : Word)
  /-- SUB rX, rY (row 47, R115). -/
  | subReg (x y : Reg)
  /-- SUBC rX, kk (row 48, R116). -/
  | subcImm (x : Reg) (kk : Word)
  /-- SUBC rX, rY (row 49, R117). -/
  | subcReg (x y : Reg)
  /-- TEST rX, kk (row 50, R138). -/
  | testImm (x : Reg) (kk : Word)
  /-- TEST rX, rY (row 51, R139). -/
  | testReg (x y : Reg)
  /-- XOR rX, kk (row 52, R136). -/
  | xorImm (x : Reg) (kk : Word)
  /-- XOR rX, rY (row 53, R137). -/
  | xorReg (x y : Reg)
  /-- FETCH rX, kk (row 54, R204). -/
  | fetchDir (x : Reg) (kk : Word)
  /-- FETCH rX, (rY) (row 55, R205). -/
  | fetchInd (x y : Reg)
  /-- STORE rX, kk (row 56, R206). -/
  | storeDir (x : Reg) (kk : Word)
  /-- STORE rX, (rY) (row 57, R207). -/
  | storeInd (x y : Reg)
deriving DecidableEq, Repr

end Sys2Proof
end

