-- ==== Sys2Proof/Machine/Dispatch.lean ====
section
/-! DEFINITION. One arm per instruction: exec. Every row of the table has its meaning. -/

namespace Sys2Proof.Machine

def exec (i : Instr) (s : State) : Host.Outcome State Fault Refusal :=
  match i with
  | .nop => Sys2Proof.Machine.execNop s
  | .addImm x kk => Sys2Proof.Machine.execAddImm x kk s
  | .addReg x y => Sys2Proof.Machine.execAddReg x y s
  | .addcyImm x kk => Sys2Proof.Machine.execAddcyImm x kk s
  | .addcyReg x y => Sys2Proof.Machine.execAddcyReg x y s
  | .andImm x kk => Sys2Proof.Machine.execAndImm x kk s
  | .andReg x y => Sys2Proof.Machine.execAndReg x y s
  | .call aaa => Sys2Proof.Machine.execCall aaa s
  | .callC aaa => Sys2Proof.Machine.execCallC aaa s
  | .callNC aaa => Sys2Proof.Machine.execCallNC aaa s
  | .callZ aaa => Sys2Proof.Machine.execCallZ aaa s
  | .callNZ aaa => Sys2Proof.Machine.execCallNZ aaa s
  | .compImm x kk => Sys2Proof.Machine.execCompImm x kk s
  | .compReg x y => Sys2Proof.Machine.execCompReg x y s
  | .disint => Sys2Proof.Machine.execDisint s
  | .enint => Sys2Proof.Machine.execEnint s
  | .inputInd x y => Sys2Proof.Machine.execInputInd x y s
  | .inputDir x pp => Sys2Proof.Machine.execInputDir x pp s
  | .jump aaa => Sys2Proof.Machine.execJump aaa s
  | .jumpC aaa => Sys2Proof.Machine.execJumpC aaa s
  | .jumpNC aaa => Sys2Proof.Machine.execJumpNC aaa s
  | .jumpZ aaa => Sys2Proof.Machine.execJumpZ aaa s
  | .jumpNZ aaa => Sys2Proof.Machine.execJumpNZ aaa s
  | .loadImm x kk => Sys2Proof.Machine.execLoadImm x kk s
  | .loadReg x y => Sys2Proof.Machine.execLoadReg x y s
  | .orImm x kk => Sys2Proof.Machine.execOrImm x kk s
  | .orReg x y => Sys2Proof.Machine.execOrReg x y s
  | .outputInd x y => Sys2Proof.Machine.execOutputInd x y s
  | .outputDir x pp => Sys2Proof.Machine.execOutputDir x pp s
  | .returnAlways => Sys2Proof.Machine.execReturnAlways s
  | .returnC => Sys2Proof.Machine.execReturnC s
  | .returnNC => Sys2Proof.Machine.execReturnNC s
  | .returnZ => Sys2Proof.Machine.execReturnZ s
  | .returnNZ => Sys2Proof.Machine.execReturnNZ s
  | .retdis => Sys2Proof.Machine.execRetdis s
  | .reten => Sys2Proof.Machine.execReten s
  | .rl x => Sys2Proof.Machine.execRl x s
  | .rr x => Sys2Proof.Machine.execRr x s
  | .sl0 x => Sys2Proof.Machine.execSl0 x s
  | .sl1 x => Sys2Proof.Machine.execSl1 x s
  | .sla x => Sys2Proof.Machine.execSla x s
  | .slx x => Sys2Proof.Machine.execSlx x s
  | .sr0 x => Sys2Proof.Machine.execSr0 x s
  | .sr1 x => Sys2Proof.Machine.execSr1 x s
  | .sra x => Sys2Proof.Machine.execSra x s
  | .srx x => Sys2Proof.Machine.execSrx x s
  | .subImm x kk => Sys2Proof.Machine.execSubImm x kk s
  | .subReg x y => Sys2Proof.Machine.execSubReg x y s
  | .subcImm x kk => Sys2Proof.Machine.execSubcImm x kk s
  | .subcReg x y => Sys2Proof.Machine.execSubcReg x y s
  | .testImm x kk => Sys2Proof.Machine.execTestImm x kk s
  | .testReg x y => Sys2Proof.Machine.execTestReg x y s
  | .xorImm x kk => Sys2Proof.Machine.execXorImm x kk s
  | .xorReg x y => Sys2Proof.Machine.execXorReg x y s
  | .fetchDir x kk => Sys2Proof.Machine.execFetchDir x kk s
  | .fetchInd x y => Sys2Proof.Machine.execFetchInd x y s
  | .storeDir x kk => Sys2Proof.Machine.execStoreDir x kk s
  | .storeInd x y => Sys2Proof.Machine.execStoreInd x y s

end Sys2Proof.Machine
end

