-- ==== Sys2Proof/WellFormed.lean ====
section
/-! DEFINITION. When an instruction is well formed.

The register fields and the literals kk and pp admit every value of their types (`30_encoding.md` R84). The one check is
that of `aaa`: no bit at or above PC_WIDTH, whether or not the transfer is taken. -/

namespace Sys2Proof

/-- The program address `aaa` that an instruction of format A holds (`30_encoding.md` R83, R84). -/
def Instr.target : Instr → Option Word
  | .call a | .callC a | .callNC a | .callZ a | .callNZ a | .jump a | .jumpC a | .jumpNC a | .jumpZ a
  | .jumpNZ a => some a
  | .nop | .addImm _ _ | .addReg _ _ | .addcyImm _ _ | .addcyReg _ _ | .andImm _ _ | .andReg _ _
  | .compImm _ _ | .compReg _ _ | .disint | .enint | .inputInd _ _ | .inputDir _ _ | .loadImm _ _
  | .loadReg _ _ | .orImm _ _ | .orReg _ _ | .outputInd _ _ | .outputDir _ _ | .returnAlways | .returnC
  | .returnNC | .returnZ | .returnNZ | .retdis | .reten | .rl _ | .rr _ | .sl0 _ | .sl1 _ | .sla _ | .slx _
  | .sr0 _ | .sr1 _ | .sra _ | .srx _ | .subImm _ _ | .subReg _ _ | .subcImm _ _ | .subcReg _ _
  | .testImm _ _ | .testReg _ _ | .xorImm _ _ | .xorReg _ _ | .fetchDir _ _ | .fetchInd _ _ | .storeDir _ _
  | .storeInd _ _ => none

/-- Whether an address fits a program counter of PC_WIDTH bits: Word2[15:PC_WIDTH] is zero (`30_encoding.md` R84). -/
def Config.holdsAddress (c : Config) (a : Word) : Bool := decide (a.toNat < 2 ^ c.pcWidth)

/-- An instruction is well formed when its program address, if it has one, fits PC_WIDTH (`30_encoding.md` R84). -/
def Instr.wellFormed (c : Config) (i : Instr) : Bool := i.target.all c.holdsAddress

end Sys2Proof
end

