-- ==== Sys2Proof/Decode.lean ====
section
/-! DEFINITION. Decoding of program words, total on any words, and the encoder.

The decoder is `30_encoding.md` R86 over the opcode map of R85, with the operands of R84; it rejects by name (R87, R88).
The machine has no byte (`20_memory.md` R51), so it reads 16-bit words (log 10). -/

namespace Sys2Proof

/-- The five formats (`30_encoding.md` R83). -/
inductive Format where
  | n
  | r
  | rr
  | ri
  | a
deriving DecidableEq, Repr

/-- Bit 15 of Word 1, "2nd": the formats RI and A have a Word 2 (`30_encoding.md` R80, R83). -/
def formatSecond : Format → Bool
  | .n | .r | .rr => false
  | .ri | .a => true

/-- The format's mask (`30_encoding.md` R86). -/
def formatMask : Format → Word
  | .n | .a => 0xFFFF
  | .r | .ri => 0xFFF0
  | .rr => 0xFF00

/-- A row of the opcode map (`30_encoding.md` R85): `op` is Word1[14:8], and `make` builds the instruction from X, Y and
Word 2. -/
structure Row where
  op : BitVec 7
  format : Format
  make : Reg → Reg → Word → Instr

/-- The row's Word 1 with the fields X and Y zero, "match" (`30_encoding.md` R86). -/
def rowPattern (r : Row) : Word := BitVec.ofBool (formatSecond r.format) ++ r.op ++ (0 : BitVec 8)

/-- Word 1 decodes to the row: `(w1 & mask) = match` (`30_encoding.md` R86). -/
def rowFits (r : Row) (w1 : Word) : Bool := w1 &&& formatMask r.format == rowPattern r

/-- Rows of R85: ADD, ADDCY, SUB, SUBC, COMP (`40_arithmetic.md`). -/
def arithRows : List Row := [
  ⟨0x02, .ri, fun x _ w => .addImm x w⟩,
  ⟨0x04, .rr, fun x y _ => .addReg x y⟩,
  ⟨0x06, .ri, fun x _ w => .addcyImm x w⟩,
  ⟨0x08, .rr, fun x y _ => .addcyReg x y⟩,
  ⟨0x18, .ri, fun x _ w => .compImm x w⟩,
  ⟨0x1A, .rr, fun x y _ => .compReg x y⟩,
  ⟨0x5C, .ri, fun x _ w => .subImm x w⟩,
  ⟨0x5E, .rr, fun x y _ => .subReg x y⟩,
  ⟨0x60, .ri, fun x _ w => .subcImm x w⟩,
  ⟨0x62, .rr, fun x y _ => .subcReg x y⟩]

/-- Rows of R85: LOAD, AND, OR, XOR, TEST (`41_logical.md`). -/
def logicRows : List Row := [
  ⟨0x0A, .ri, fun x _ w => .andImm x w⟩,
  ⟨0x0C, .rr, fun x y _ => .andReg x y⟩,
  ⟨0x2E, .ri, fun x _ w => .loadImm x w⟩,
  ⟨0x30, .rr, fun x y _ => .loadReg x y⟩,
  ⟨0x32, .ri, fun x _ w => .orImm x w⟩,
  ⟨0x34, .rr, fun x y _ => .orReg x y⟩,
  ⟨0x64, .ri, fun x _ w => .testImm x w⟩,
  ⟨0x66, .rr, fun x y _ => .testReg x y⟩,
  ⟨0x68, .ri, fun x _ w => .xorImm x w⟩,
  ⟨0x6A, .rr, fun x y _ => .xorReg x y⟩]

/-- Rows of R85: the ten shifts and rotates (`42_shift_rotate.md`). -/
def shiftRows : List Row := [
  ⟨0x48, .r, fun x _ _ => .rl x⟩,
  ⟨0x4A, .r, fun x _ _ => .rr x⟩,
  ⟨0x4C, .r, fun x _ _ => .sl0 x⟩,
  ⟨0x4E, .r, fun x _ _ => .sl1 x⟩,
  ⟨0x50, .r, fun x _ _ => .sla x⟩,
  ⟨0x52, .r, fun x _ _ => .slx x⟩,
  ⟨0x54, .r, fun x _ _ => .sr0 x⟩,
  ⟨0x56, .r, fun x _ _ => .sr1 x⟩,
  ⟨0x58, .r, fun x _ _ => .sra x⟩,
  ⟨0x5A, .r, fun x _ _ => .srx x⟩]

/-- Rows of R85: JUMP, CALL and RETURN and their conditional forms (`43_control_transfer.md`). -/
def controlRows : List Row := [
  ⟨0x0E, .a, fun _ _ w => .call w⟩,
  ⟨0x10, .a, fun _ _ w => .callC w⟩,
  ⟨0x12, .a, fun _ _ w => .callNC w⟩,
  ⟨0x14, .a, fun _ _ w => .callZ w⟩,
  ⟨0x16, .a, fun _ _ w => .callNZ w⟩,
  ⟨0x24, .a, fun _ _ w => .jump w⟩,
  ⟨0x26, .a, fun _ _ w => .jumpC w⟩,
  ⟨0x28, .a, fun _ _ w => .jumpNC w⟩,
  ⟨0x2A, .a, fun _ _ w => .jumpZ w⟩,
  ⟨0x2C, .a, fun _ _ w => .jumpNZ w⟩,
  ⟨0x3A, .n, fun _ _ _ => .returnAlways⟩,
  ⟨0x3C, .n, fun _ _ _ => .returnC⟩,
  ⟨0x3E, .n, fun _ _ _ => .returnNC⟩,
  ⟨0x40, .n, fun _ _ _ => .returnZ⟩,
  ⟨0x42, .n, fun _ _ _ => .returnNZ⟩]

/-- Rows of R85: INPUT, OUTPUT, FETCH, STORE (`44_io_and_scratchpad.md`). -/
def accessRows : List Row := [
  ⟨0x20, .rr, fun x y _ => .inputInd x y⟩,
  ⟨0x22, .ri, fun x _ w => .inputDir x w⟩,
  ⟨0x36, .rr, fun x y _ => .outputInd x y⟩,
  ⟨0x38, .ri, fun x _ w => .outputDir x w⟩,
  ⟨0x70, .ri, fun x _ w => .fetchDir x w⟩,
  ⟨0x72, .rr, fun x y _ => .fetchInd x y⟩,
  ⟨0x74, .ri, fun x _ w => .storeDir x w⟩,
  ⟨0x76, .rr, fun x y _ => .storeInd x y⟩]

/-- Rows of R85: NOP, DISINT, ENINT, RETDIS, RETEN (`45_system.md`). -/
def systemRows : List Row := [
  ⟨0x00, .n, fun _ _ _ => .nop⟩,
  ⟨0x1C, .n, fun _ _ _ => .disint⟩,
  ⟨0x1E, .n, fun _ _ _ => .enint⟩,
  ⟨0x44, .n, fun _ _ _ => .retdis⟩,
  ⟨0x46, .n, fun _ _ _ => .reten⟩]

/-- The opcode map of 58 rows (`30_encoding.md` R85). -/
def opcodeMap : List Row := arithRows ++ logicRows ++ shiftRows ++ controlRows ++ accessRows ++ systemRows

/-- Bit 15 of Word 1: a Word 2 follows (`30_encoding.md` R80, R81). -/
def hasSecond (w1 : Word) : Bool := w1.getLsbD 15

/-- X = Word1[3:0] (`30_encoding.md` R84). -/
def fieldX (w1 : Word) : Reg := (w1.extractLsb' 0 4).toFin

/-- Y = Word1[7:4] (`30_encoding.md` R84). -/
def fieldY (w1 : Word) : Reg := (w1.extractLsb' 4 4).toFin

/-- Why words are not an instruction. -/
inductive DecodeReject where
  /-- Word 1 fits no row (`30_encoding.md` R87, R88). -/
  | illegalInstruction
  /-- `aaa` has a bit at or above PC_WIDTH (`30_encoding.md` R84). -/
  | addressOutOfRange
  /-- There is no Word 1, or Word1[15] is 1 and there is no Word 2 (`30_encoding.md` R80). A step never sees it: it
  fetches both words first (`20_memory.md` R61). -/
  | missingWord
deriving DecidableEq, Repr

/-- The row that Word 1 fits (`30_encoding.md` R86). -/
def rowFor (w1 : Word) : Option Row := opcodeMap.find? (fun r => rowFits r w1)

/-- Decoding of Word 1 and Word 2 (`30_encoding.md` R86), then the check of `aaa` (R84), in the order of R241. A one-word
instruction does not look at `w2`. -/
def decodePair (c : Config) (w1 w2 : Word) : Except DecodeReject Instr :=
  match rowFor w1 with
  | none => .error .illegalInstruction
  | some r =>
    let i := r.make (fieldX w1) (fieldY w1) w2
    if i.wellFormed c then .ok i else .error .addressOutOfRange

/-- Decoding of a list of words: the instruction and the words after it. The length is learnt from Word1[15] alone,
before the opcode is looked up (`30_encoding.md` R80). -/
def decode (c : Config) : List Word → Except DecodeReject (Instr × List Word)
  | [] => .error .missingWord
  | w1 :: rest =>
    if hasSecond w1 then
      match rest with
      | [] => .error .missingWord
      | w2 :: rest' => (decodePair c w1 w2).map (fun i => (i, rest'))
    else (decodePair c w1 0).map (fun i => (i, rest))

/-- Word 1 from its four fields (`30_encoding.md` R81). -/
def word1 (second : Bool) (op : BitVec 7) (y x : Reg) : Word :=
  BitVec.ofBool second ++ op ++ BitVec.ofFin (w := 4) y ++ BitVec.ofFin (w := 4) x

/-- Format N (`30_encoding.md` R83). -/
def encodeN (op : BitVec 7) : List Word := [word1 false op 0 0]

/-- Format R (`30_encoding.md` R83). -/
def encodeR (op : BitVec 7) (x : Reg) : List Word := [word1 false op 0 x]

/-- Format RR (`30_encoding.md` R83). -/
def encodeRR (op : BitVec 7) (x y : Reg) : List Word := [word1 false op y x]

/-- Format RI (`30_encoding.md` R83). -/
def encodeRI (op : BitVec 7) (x : Reg) (w2 : Word) : List Word := [word1 true op 0 x, w2]

/-- Format A (`30_encoding.md` R83). -/
def encodeA (op : BitVec 7) (aaa : Word) : List Word := [word1 true op 0 0, aaa]

/-- The words of an instruction (`30_encoding.md` R83, R85). -/
def encode : Instr → List Word
  | .nop => encodeN 0x00
  | .addImm x w2 => encodeRI 0x02 x w2
  | .addReg x y => encodeRR 0x04 x y
  | .addcyImm x w2 => encodeRI 0x06 x w2
  | .addcyReg x y => encodeRR 0x08 x y
  | .andImm x w2 => encodeRI 0x0A x w2
  | .andReg x y => encodeRR 0x0C x y
  | .call aaa => encodeA 0x0E aaa
  | .callC aaa => encodeA 0x10 aaa
  | .callNC aaa => encodeA 0x12 aaa
  | .callZ aaa => encodeA 0x14 aaa
  | .callNZ aaa => encodeA 0x16 aaa
  | .compImm x w2 => encodeRI 0x18 x w2
  | .compReg x y => encodeRR 0x1A x y
  | .disint => encodeN 0x1C
  | .enint => encodeN 0x1E
  | .inputInd x y => encodeRR 0x20 x y
  | .inputDir x w2 => encodeRI 0x22 x w2
  | .jump aaa => encodeA 0x24 aaa
  | .jumpC aaa => encodeA 0x26 aaa
  | .jumpNC aaa => encodeA 0x28 aaa
  | .jumpZ aaa => encodeA 0x2A aaa
  | .jumpNZ aaa => encodeA 0x2C aaa
  | .loadImm x w2 => encodeRI 0x2E x w2
  | .loadReg x y => encodeRR 0x30 x y
  | .orImm x w2 => encodeRI 0x32 x w2
  | .orReg x y => encodeRR 0x34 x y
  | .outputInd x y => encodeRR 0x36 x y
  | .outputDir x w2 => encodeRI 0x38 x w2
  | .returnAlways => encodeN 0x3A
  | .returnC => encodeN 0x3C
  | .returnNC => encodeN 0x3E
  | .returnZ => encodeN 0x40
  | .returnNZ => encodeN 0x42
  | .retdis => encodeN 0x44
  | .reten => encodeN 0x46
  | .rl x => encodeR 0x48 x
  | .rr x => encodeR 0x4A x
  | .sl0 x => encodeR 0x4C x
  | .sl1 x => encodeR 0x4E x
  | .sla x => encodeR 0x50 x
  | .slx x => encodeR 0x52 x
  | .sr0 x => encodeR 0x54 x
  | .sr1 x => encodeR 0x56 x
  | .sra x => encodeR 0x58 x
  | .srx x => encodeR 0x5A x
  | .subImm x w2 => encodeRI 0x5C x w2
  | .subReg x y => encodeRR 0x5E x y
  | .subcImm x w2 => encodeRI 0x60 x w2
  | .subcReg x y => encodeRR 0x62 x y
  | .testImm x w2 => encodeRI 0x64 x w2
  | .testReg x y => encodeRR 0x66 x y
  | .xorImm x w2 => encodeRI 0x68 x w2
  | .xorReg x y => encodeRR 0x6A x y
  | .fetchDir x w2 => encodeRI 0x70 x w2
  | .fetchInd x y => encodeRR 0x72 x y
  | .storeDir x w2 => encodeRI 0x74 x w2
  | .storeInd x y => encodeRR 0x76 x y

/-- The instruction the decoder reads from the bits `w`, Word 1 in bits 15..0 and Word 2 in bits 31..16, every bit at or
above `nbits` being 0; PC_WIDTH is the default 16. -/
def decodeTableWord (nbits w : Nat) : Option Instr :=
  let v := w % 2 ^ nbits
  match decode Config.default [BitVec.ofNat 16 v, BitVec.ofNat 16 (v / 65536)] with
  | .ok (i, _) => some i
  | .error _ => none

end Sys2Proof
end

