-- ==== Sys2Proof/Machine/Fetch.lean ====
section
/-! DEFINITION. The parts of a step around the instruction: the sample of `irq`, the fetch, and loading a program.

`10_state.md` R34, `20_memory.md` R61, `60_exceptions.md` R244. -/

namespace Sys2Proof.Machine

/-- The value of `irq` this step samples (`60_exceptions.md` R244; log 7). -/
def State.irqNow (s : State) : Bool :=
  match s.env.irqs with
  | b :: _ => b
  | [] => Config.freeIrq s.env.steps

/-- The step's sample of `irq` is consumed and the step counted; the processor's own state is as it was. -/
def State.tick (s : State) : State :=
  s.setEnv { s.env with irqs := s.env.irqs.tail, steps := s.env.steps + 1 }

/-- The step is an interrupt entry: `IE = 1` and `irq = 1` (`60_exceptions.md` R244). -/
def State.interruptTaken (s : State) : Bool := s.ie && s.irqNow

/-- The word of program memory at an address, whatever PROG_SIZE is. -/
def State.progWord (s : State) (a : Nat) : Word := (Memory.read .program s.prog a).getD 0

/-- `ProgRead(a)`: the word at `a` when `a < PROG_SIZE`, otherwise the fault FetchOutOfRange (`20_memory.md` R61). -/
def State.progRead (s : State) (a : Word) : Except Fault Word :=
  if a.toNat < s.config.progSize then .ok (s.progWord a.toNat) else .error .fetchOutOfRange

/-- The fetch of Word 2, at `(pc + 1) mod 2^PC_WIDTH` (`10_state.md` R34). A two-word instruction whose Word 1 is at the
last address of program memory has no Word 2: that is the fault FetchOutOfRange (`20_memory.md` R52, R61), also when
PROG_SIZE is 2^PC_WIDTH, where the address would wrap to 0 (log 16). -/
def State.readSecond (s : State) : Except Fault Word :=
  if s.pc.toNat + 1 < s.config.progSize then .ok (s.progWord (s.pcPlus 1).toNat) else .error .fetchOutOfRange

/-- The words of the instruction at `pc`: Word 1, and Word 2 when Word1[15] = 1 (`10_state.md` R34, `30_encoding.md`
R80). -/
def State.fetchWords (s : State) : Except Fault (List Word) :=
  match s.progRead s.pc with
  | .error f => .error f
  | .ok w1 =>
    if hasSecond w1 then
      match s.readSecond with
      | .error f => .error f
      | .ok w2 => .ok [w1, w2]
    else .ok [w1]

/-- The fault that a decoder's rejection raises (`60_exceptions.md` R241). -/
def faultOfReject : DecodeReject → Fault
  | .illegalInstruction => .illegalInstruction
  | .addressOutOfRange => .addressOutOfRange
  | .missingWord => .fetchOutOfRange

/-- Fetch and decode, in the order of detection of `60_exceptions.md` R241. -/
def State.fetchInstr (s : State) : Except Fault Instr :=
  match s.fetchWords with
  | .error f => .error f
  | .ok ws =>
    match decode s.config ws with
    | .error r => .error (faultOfReject r)
    | .ok (i, _) => .ok i

/-! ### Loading from outside the machine (log 6) -/

/-- A word placed in program memory from outside the machine; no instruction does this (`20_memory.md` R59). -/
def State.placeWord (s : State) (a : Nat) (v : Word) : State := s.setProg (Memory.write .program s.prog a v)

/-- Words placed at rising addresses from `a`. -/
def State.placeWords (s : State) (a : Nat) : List Word → State
  | [] => s
  | w :: ws => State.placeWords (s.placeWord a w) (a + 1) ws

/-- Two bytes of a host's image as a word (`00_scope.md` R4 HOST_BYTE_ORDER, `20_memory.md` R51). -/
def wordOfBytes (o : ByteOrder) (first second : Byte) : Word :=
  match o with
  | .big => first ++ second
  | .little => second ++ first

/-- A word as the two bytes of a host's image, the first byte first. -/
def bytesOfWord (o : ByteOrder) (w : Word) : List Byte :=
  match o with
  | .big => [w.extractLsb' 8 8, w.extractLsb' 0 8]
  | .little => [w.extractLsb' 0 8, w.extractLsb' 8 8]

/-- The words of a host's image; a last odd byte is no word and is dropped. -/
def wordsOfBytes (o : ByteOrder) : List Byte → List Word
  | b1 :: b2 :: bs => wordOfBytes o b1 b2 :: wordsOfBytes o bs
  | _ => []

/-- A host's byte image loaded from program address 0, in the order HOST_BYTE_ORDER. -/
def State.loadImage (s : State) (bs : List Byte) : State :=
  s.placeWords 0 (wordsOfBytes s.config.hostByteOrder bs)

/-- The two words of `w` (bits at or above `nbits` zero) placed at `pc` and at `(pc + 1) mod 2^PC_WIDTH`, and, when IE
is 1, `irq` presented as 0 at the next step, so that the next step executes them. -/
def State.plantInstr (s : State) (nbits w : Nat) : State :=
  let v := w % 2 ^ nbits
  let t := (s.placeWord s.pc.toNat (BitVec.ofNat 16 v)).placeWord (s.pcPlus 1).toNat (BitVec.ofNat 16 (v / 65536))
  if s.ie then t.setEnv { s.env with irqs := false :: s.env.irqs } else t

end Sys2Proof.Machine
end

