-- ==== Sys2Proof/Machine/Step.lean ====
section
/-! DEFINITION. One step of the machine (`10_state.md` R34). -/

namespace Sys2Proof.Machine

/-- `irq` is sampled once, before the fetch; with `IE = 1` and `irq = 1` the step is an interrupt entry, otherwise it
fetches, decodes and executes one instruction (`10_state.md` R34, `60_exceptions.md` R244). -/
def step (s : State) : Host.Outcome State Fault Refusal :=
  if s.interruptTaken then enterInterrupt s.tick
  else
    match s.tick.fetchInstr with
    | .error f => .fault f
    | .ok i => exec i s.tick

/-- The state with the instruction of bits `w` placed where the next step fetches it (log 6). -/
def State.withFetchWord (s : State) (nbits w : Nat) : State := s.plantInstr nbits w

end Sys2Proof.Machine
end

