-- ==== Sys2Proof/Safety.lean ====
section
/-! DEFINITION. What counts as a right configuration, a well-kept state and a safe run; the words statements use. -/

namespace Sys2Proof

/-- The constraints of `00_scope.md` R4 on the parameters; a configuration without them cannot be right
(`93_implementation_defined.md` U16; log 12). -/
abbrev Config.legal (c : Config) : Prop :=
  1 ≤ c.pcWidth ∧ c.pcWidth ≤ 16 ∧ c.progSize ≤ 2 ^ c.pcWidth ∧ 1 ≤ c.stackDepth ∧ c.scratchAddrBits ≤ 16 ∧
    c.intVector.toNat < c.progSize

end Sys2Proof

namespace Sys2Proof.Machine

/-- The invariant of the machine: the parameters are right (R4); `pc` and every stack entry are PC_WIDTH bits wide (R21,
R25); the stack holds at most STACK_DEPTH entries (R25); the scratchpad is in canonical form and lists only cells it has
(R27); program memory likewise (R28). -/
structure State.Inv (s : State) : Prop where
  legal : s.config.legal
  pc_fits : s.pc.toNat < 2 ^ s.config.pcWidth
  stack_held : s.sp ≤ s.config.stackDepth
  entries_fit : ∀ v ∈ s.stack, v.toNat < 2 ^ s.config.pcWidth
  ram_wf : Memory.wf .scratchpad s.ram
  ram_fits : ∀ c ∈ s.ram, c.1 < 2 ^ s.config.scratchAddrBits
  prog_wf : Memory.wf .program s.prog
  prog_fits : ∀ c ∈ s.prog, c.1 < s.config.progSize

/-! ### Frames: what a step leaves as it was -/

/-- Every general register but those listed reads as before. -/
def KeepsRegsBut (xs : List Reg) (s t : State) : Prop := ∀ r, r ∉ xs → t.reg r = s.reg r

/-- ZERO and CARRY are as before. -/
def KeepsFlags (s t : State) : Prop := t.zero = s.zero ∧ t.carry = s.carry

/-- IE and the saved flags SZ and SC are as before. -/
def KeepsInterrupts (s t : State) : Prop :=
  t.ie = s.ie ∧ t.savedZero = s.savedZero ∧ t.savedCarry = s.savedCarry

/-- The subroutine stack is as before. -/
def KeepsStack (s t : State) : Prop := t.stack = s.stack

/-- Every cell of the scratchpad reads as before. -/
def KeepsRam (s t : State) : Prop := ∀ a, t.cell a = s.cell a

/-- Every cell of the scratchpad but the one listed reads as before. -/
def KeepsRamBut (n : Nat) (s t : State) : Prop := ∀ a, a ≠ n → t.cell a = s.cell a

/-- Every word of program memory reads as before, and the parameters are the same. -/
def KeepsProgram (s t : State) : Prop := (∀ a, t.progWord a = s.progWord a) ∧ t.config = s.config

/-- No port event happened and the environment presents next what it did. -/
def KeepsPorts (s t : State) : Prop := t.portLog = s.portLog ∧ t.env = s.env

/-- Everything but general registers, flags and `pc` is as before. -/
def KeepsBeyondRegisters (s t : State) : Prop :=
  KeepsInterrupts s t ∧ KeepsStack s t ∧ KeepsRam s t ∧ KeepsProgram s t ∧ KeepsPorts s t

/-- Two states agree on everything but the environment. -/
def SameMachine (s t : State) : Prop := t.setEnv s.env = s

/-- Everything but `pc` and the stack is as before. -/
def KeepsBeyondControl (s t : State) : Prop :=
  KeepsRegsBut [] s t ∧ KeepsFlags s t ∧ KeepsInterrupts s t ∧ KeepsRam s t ∧ KeepsProgram s t ∧ KeepsPorts s t

/-! ### What an instruction may write -/

/-- The general register an instruction writes, if any (`10_state.md` R20). -/
def destination : Instr → Option Reg
  | .addImm x _ | .addReg x _ | .addcyImm x _ | .addcyReg x _ | .andImm x _ | .andReg x _ => some x
  | .inputInd x _ | .inputDir x _ | .loadImm x _ | .loadReg x _ | .orImm x _ | .orReg x _ => some x
  | .rl x | .rr x | .sl0 x | .sl1 x | .sla x | .slx x | .sr0 x | .sr1 x | .sra x | .srx x => some x
  | .subImm x _ | .subReg x _ | .subcImm x _ | .subcReg x _ | .xorImm x _ | .xorReg x _ => some x
  | .fetchDir x _ | .fetchInd x _ => some x
  | .nop | .call _ | .callC _ | .callNC _ | .callZ _ | .callNZ _ | .compImm _ _ | .compReg _ _ | .disint | .enint => none
  | .jump _ | .jumpC _ | .jumpNC _ | .jumpZ _ | .jumpNZ _ | .outputInd _ _ | .outputDir _ _ => none
  | .returnAlways | .returnC | .returnNC | .returnZ | .returnNZ | .retdis | .reten => none
  | .testImm _ _ | .testReg _ _ | .storeDir _ _ | .storeInd _ _ => none

/-- The instructions whose ZERO and CARRY columns are not `-` (`10_state.md` R22, R23). -/
def writesFlags : Instr → Bool
  | .addImm _ _ | .addReg _ _ | .addcyImm _ _ | .addcyReg _ _ | .andImm _ _ | .andReg _ _ => true
  | .compImm _ _ | .compReg _ _ | .orImm _ _ | .orReg _ _ | .retdis | .reten => true
  | .rl _ | .rr _ | .sl0 _ | .sl1 _ | .sla _ | .slx _ | .sr0 _ | .sr1 _ | .sra _ | .srx _ => true
  | .subImm _ _ | .subReg _ _ | .subcImm _ _ | .subcReg _ _ | .testImm _ _ | .testReg _ _ => true
  | .xorImm _ _ | .xorReg _ _ => true
  | .nop | .call _ | .callC _ | .callNC _ | .callZ _ | .callNZ _ | .disint | .enint | .inputInd _ _ => false
  | .inputDir _ _ | .jump _ | .jumpC _ | .jumpNC _ | .jumpZ _ | .jumpNZ _ | .loadImm _ _ | .loadReg _ _ => false
  | .outputInd _ _ | .outputDir _ _ | .returnAlways | .returnC | .returnNC | .returnZ | .returnNZ => false
  | .fetchDir _ _ | .fetchInd _ _ | .storeDir _ _ | .storeInd _ _ => false

/-- The instructions that read ZERO (`10_state.md` R22). -/
def readsZero : Instr → Bool
  | .jumpZ _ | .jumpNZ _ | .callZ _ | .callNZ _ | .returnZ | .returnNZ => true
  | .nop | .addImm _ _ | .addReg _ _ | .addcyImm _ _ | .addcyReg _ _ | .andImm _ _ | .andReg _ _ => false
  | .call _ | .callC _ | .callNC _ | .compImm _ _ | .compReg _ _ | .disint | .enint | .inputInd _ _ => false
  | .inputDir _ _ | .jump _ | .jumpC _ | .jumpNC _ | .loadImm _ _ | .loadReg _ _ | .orImm _ _ => false
  | .orReg _ _ | .outputInd _ _ | .outputDir _ _ | .returnAlways | .returnC | .returnNC | .retdis => false
  | .reten | .rl _ | .rr _ | .sl0 _ | .sl1 _ | .sla _ | .slx _ | .sr0 _ | .sr1 _ | .sra _ | .srx _ => false
  | .subImm _ _ | .subReg _ _ | .subcImm _ _ | .subcReg _ _ | .testImm _ _ | .testReg _ _ => false
  | .xorImm _ _ | .xorReg _ _ | .fetchDir _ _ | .fetchInd _ _ | .storeDir _ _ | .storeInd _ _ => false

/-- The instructions that read CARRY, as an operand or as a condition (`10_state.md` R23). -/
def readsCarry : Instr → Bool
  | .addcyImm _ _ | .addcyReg _ _ | .subcImm _ _ | .subcReg _ _ | .sla _ | .sra _ | .jumpC _ => true
  | .jumpNC _ | .callC _ | .callNC _ | .returnC | .returnNC => true
  | .nop | .addImm _ _ | .addReg _ _ | .andImm _ _ | .andReg _ _ | .call _ | .callZ _ | .callNZ _ => false
  | .compImm _ _ | .compReg _ _ | .disint | .enint | .inputInd _ _ | .inputDir _ _ | .jump _ => false
  | .jumpZ _ | .jumpNZ _ | .loadImm _ _ | .loadReg _ _ | .orImm _ _ | .orReg _ _ | .outputInd _ _ => false
  | .outputDir _ _ | .returnAlways | .returnZ | .returnNZ | .retdis | .reten | .rl _ | .rr _ | .sl0 _ => false
  | .sl1 _ | .slx _ | .sr0 _ | .sr1 _ | .srx _ | .subImm _ _ | .subReg _ _ | .testImm _ _ => false
  | .testReg _ _ | .xorImm _ _ | .xorReg _ _ | .fetchDir _ _ | .fetchInd _ _ | .storeDir _ _ => false
  | .storeInd _ _ => false

/-- The instructions that push or pop, taken (`10_state.md` R25). -/
def usesStack : Instr → Bool
  | .call _ | .callC _ | .callNC _ | .callZ _ | .callNZ _ | .returnAlways | .returnC | .returnNC | .returnZ => true
  | .returnNZ | .retdis | .reten => true
  | .nop | .addImm _ _ | .addReg _ _ | .addcyImm _ _ | .addcyReg _ _ | .andImm _ _ | .andReg _ _ => false
  | .compImm _ _ | .compReg _ _ | .disint | .enint | .inputInd _ _ | .inputDir _ _ | .jump _ | .jumpC _ => false
  | .jumpNC _ | .jumpZ _ | .jumpNZ _ | .loadImm _ _ | .loadReg _ _ | .orImm _ _ | .orReg _ _ => false
  | .outputInd _ _ | .outputDir _ _ | .rl _ | .rr _ | .sl0 _ | .sl1 _ | .sla _ | .slx _ | .sr0 _ | .sr1 _ => false
  | .sra _ | .srx _ | .subImm _ _ | .subReg _ _ | .subcImm _ _ | .subcReg _ _ | .testImm _ _ => false
  | .testReg _ _ | .xorImm _ _ | .xorReg _ _ | .fetchDir _ _ | .fetchInd _ _ | .storeDir _ _ => false
  | .storeInd _ _ => false

/-! ### Runs -/

/-- `n` steps, stopping at the first fault or refusal. -/
def steps : Nat → State → Result
  | 0, s => .next s
  | n + 1, s =>
    match step s with
    | .next t => steps n t
    | .fault f => .fault f
    | .refused r => .refused r

/-- One instruction executed `n` times, stopping at the first fault or refusal. -/
def execTimes : Nat → Instr → State → Result
  | 0, _, s => .next s
  | n + 1, i, s =>
    match exec i s with
    | .next t => execTimes n i t
    | .fault f => .fault f
    | .refused r => .refused r

/-- The state with the coming samples of `irq` listed. -/
def presentIrqs (s : State) (l : List Bool) : State := s.setEnv { s.env with irqs := l }

/-- The end of a run: the next step executes an unconditional JUMP to its own address (`70_reset_and_hazards.md`
R275). -/
def endOfRun (s : State) : Bool :=
  !s.interruptTaken &&
    match s.tick.fetchInstr with
    | .ok (.jump aaa) => aaa == s.pc
    | _ => false

/-- A run of `n` steps meets no fault and no refusal: the program never reaches a case the spec does not define
(`60_exceptions.md` R241). -/
def runsFor (n : Nat) (s : State) : Bool :=
  match steps n s with
  | .next _ => true
  | .fault _ => false
  | .refused _ => false

/-! ### Configurations and programs that cannot be right -/

/-- Some word of the listed program is the Word 1 of ENINT or RETEN (`93_implementation_defined.md` U16). -/
def programEnablesInterrupts (m : Memory) : Bool := m.any fun c => c.2 == 0x1E00 || c.2 == 0x4600

/-- What `93_implementation_defined.md` U16 would refuse before a run: PROG_SIZE above 2^PC_WIDTH, an image longer than
PROG_SIZE, or INT_VECTOR outside the program while the program can enable interrupts (log 12). A step does not ask. -/
def admissible (s : State) : Bool :=
  decide (s.config.progSize ≤ 2 ^ s.config.pcWidth) && s.prog.all (fun c => decide (c.1 < s.config.progSize)) &&
    (!programEnablesInterrupts s.prog || decide (s.config.intVector.toNat < s.config.progSize))

end Sys2Proof.Machine
end

