-- ==== Sys2Proof/Certificates/Slice0/Obligations.lean ====
section
/-! DEFINITION. The statements for the provers, from the numbered rules of spec/.

A statement of a result says that the instruction answers a next state and what that state holds, its frame included.
Where it rests on a decision that the spec marks as its own (`92_eei_decisions.md` D<n>) or on a choice of the model
(log <n>), its docstring says which. -/

namespace Sys2Proof.Machine

/-! ### The shapes of results -/

/-- rX takes `(rX + b + c) mod 65536`, CARRY the carry out of bit 15, ZERO whether the result is 0, and nothing else but
`pc` changes. -/
def SumInto (x : Reg) (b : Word) (c : Bool) (len : Nat) (s t : State) : Prop :=
  (t.reg x).toNat = ((s.reg x).toNat + b.toNat + c.toNat) % 65536 ∧
    (t.carry = true ↔ 65536 ≤ (s.reg x).toNat + b.toNat + c.toNat) ∧
    (t.zero = true ↔ ((s.reg x).toNat + b.toNat + c.toNat) % 65536 = 0) ∧
    t.pc = s.pcPlus len ∧ KeepsRegsBut [x] s t ∧ KeepsBeyondRegisters s t

/-- rX takes `(rX - b - c) mod 65536`, CARRY the borrow, ZERO whether the result is 0, and nothing else but `pc`
changes. -/
def DifferenceInto (x : Reg) (b : Word) (c : Bool) (len : Nat) (s t : State) : Prop :=
  ((t.reg x).toNat : Int) = (((s.reg x).toNat : Int) - b.toNat - c.toNat) % 65536 ∧
    (t.carry = true ↔ ((s.reg x).toNat : Int) - b.toNat - c.toNat < 0) ∧
    (t.zero = true ↔ (((s.reg x).toNat : Int) - b.toNat - c.toNat) % 65536 = 0) ∧
    t.pc = s.pcPlus len ∧ KeepsRegsBut [x] s t ∧ KeepsBeyondRegisters s t

/-- ZERO takes `a = b`, CARRY takes `a < b` unsigned, no register is written and nothing else but `pc` changes. -/
def ComparesWith (x : Reg) (b : Word) (len : Nat) (s t : State) : Prop :=
  (t.zero = true ↔ s.reg x = b) ∧ (t.carry = true ↔ (s.reg x).toNat < b.toNat) ∧
    t.pc = s.pcPlus len ∧ KeepsRegsBut [] s t ∧ KeepsBeyondRegisters s t

/-- rX takes `v`, no flag is written and nothing else but `pc` changes. -/
def LoadsInto (x : Reg) (v : Word) (len : Nat) (s t : State) : Prop :=
  t.reg x = v ∧ KeepsFlags s t ∧ t.pc = s.pcPlus len ∧ KeepsRegsBut [x] s t ∧ KeepsBeyondRegisters s t

/-- Bit by bit, rX takes `f` of its old bit and the operand's; ZERO is 1 exactly when all 16 new bits are 0, CARRY is 0,
and nothing else but `pc` changes. -/
def BitwiseInto (f : Bool → Bool → Bool) (x : Reg) (b : Word) (len : Nat) (s t : State) : Prop :=
  (∀ i, i < 16 → (t.reg x).getLsbD i = f ((s.reg x).getLsbD i) (b.getLsbD i)) ∧
    (t.zero = true ↔ ∀ i, i < 16 → f ((s.reg x).getLsbD i) (b.getLsbD i) = false) ∧ t.carry = false ∧
    t.pc = s.pcPlus len ∧ KeepsRegsBut [x] s t ∧ KeepsBeyondRegisters s t

/-- ZERO is 1 exactly when rX and the operand share no 1 bit, CARRY is 1 exactly when they share an odd number of 1
bits, no register is written and nothing else but `pc` changes. -/
def TestsWith (x : Reg) (b : Word) (len : Nat) (s t : State) : Prop :=
  (t.zero = true ↔ ∀ i, i < 16 → ((s.reg x).getLsbD i && b.getLsbD i) = false) ∧
    (t.carry = true ↔ (List.range 16).countP (fun i => (s.reg x).getLsbD i && b.getLsbD i) % 2 = 1) ∧
    t.pc = s.pcPlus len ∧ KeepsRegsBut [] s t ∧ KeepsBeyondRegisters s t

/-- Every bit of rX moves one place up, `fill` enters at bit 0 and old bit 15 goes to CARRY; ZERO is 1 exactly when the
new value is 0, and nothing else but `pc` changes. -/
def MovesLeft (x : Reg) (fill : Bool) (s t : State) : Prop :=
  (t.reg x).getLsbD 0 = fill ∧ (∀ i, i < 15 → (t.reg x).getLsbD (i + 1) = (s.reg x).getLsbD i) ∧
    t.carry = (s.reg x).getLsbD 15 ∧ (t.zero = true ↔ t.reg x = 0) ∧
    t.pc = s.pcPlus 1 ∧ KeepsRegsBut [x] s t ∧ KeepsBeyondRegisters s t

/-- Every bit of rX moves one place down, `fill` enters at bit 15 and old bit 0 goes to CARRY; ZERO is 1 exactly when the
new value is 0, and nothing else but `pc` changes. -/
def MovesRight (x : Reg) (fill : Bool) (s t : State) : Prop :=
  (t.reg x).getLsbD 15 = fill ∧ (∀ i, i < 15 → (t.reg x).getLsbD i = (s.reg x).getLsbD (i + 1)) ∧
    t.carry = (s.reg x).getLsbD 0 ∧ (t.zero = true ↔ t.reg x = 0) ∧
    t.pc = s.pcPlus 1 ∧ KeepsRegsBut [x] s t ∧ KeepsBeyondRegisters s t

/-- A JUMP form completes from every state: `pc` takes `aaa` when taken, else the next address; nothing else changes. -/
def JumpsTo (i : Instr) (taken : Bool) (aaa : Word) (s : State) : Prop :=
  ∃ t, exec i s = .next t ∧ t.pc = (if taken = true then aaa else s.pcPlus 2) ∧ KeepsStack s t ∧
    KeepsBeyondControl s t

/-- A CALL form completes when it is not taken or the stack has room: taken, the address of its Word 2 is the new top and
`pc` takes `aaa`; else `pc` takes the next address; nothing else changes. -/
def CallsTo (i : Instr) (taken : Bool) (aaa : Word) (s : State) : Prop :=
  (taken = true → s.sp < s.config.stackDepth) →
    ∃ t, exec i s = .next t ∧ t.pc = (if taken = true then aaa else s.pcPlus 2) ∧
      t.stack = (if taken = true then s.pcPlus 1 :: s.stack else s.stack) ∧ KeepsBeyondControl s t

/-- A RETURN form completes when it is not taken or the stack holds an entry: taken, the top is removed and `pc` takes the
address after it; else `pc` takes the next address; nothing else changes. -/
def ReturnsFrom (i : Instr) (taken : Bool) (s : State) : Prop :=
  (taken = true → s.stack ≠ []) →
    ∃ t, exec i s = .next t ∧ t.pc = (if taken = true then wrapPc s.config (s.stack.headD 0 + 1) else s.pcPlus 1) ∧
      t.stack = (if taken = true then s.stack.tail else s.stack) ∧ KeepsBeyondControl s t

/-- RETDIS and RETEN complete when the stack holds an entry: the top is removed, `pc` takes the address after it, ZERO and
CARRY take SZ and SC, IE takes `enable`; nothing else changes. -/
def ReturnsFromInterrupt (i : Instr) (enable : Bool) (s : State) : Prop :=
  ∀ tos below, s.stack = tos :: below →
    ∃ t, exec i s = .next t ∧ t.pc = wrapPc s.config (tos + 1) ∧ t.stack = below ∧ t.zero = s.savedZero ∧
      t.carry = s.savedCarry ∧ t.ie = enable ∧ t.savedZero = s.savedZero ∧ t.savedCarry = s.savedCarry ∧
      KeepsRegsBut [] s t ∧ KeepsRam s t ∧ KeepsProgram s t ∧ KeepsPorts s t

/-- INPUT from port `p` completes from every state: rX takes the datum, one event is logged, the environment has one
datum less; nothing else but `pc` changes. -/
def InputsFrom (i : Instr) (x : Reg) (p : Word) (len : Nat) (s : State) : Prop :=
  ∃ t, exec i s = .next t ∧ t.reg x = s.portDatum p ∧ t.portLog = s.portLog ++ [.input p (s.portDatum p)] ∧
    t.env = { s.env with data := s.env.data.tail } ∧ t.pc = s.pcPlus len ∧ KeepsRegsBut [x] s t ∧ KeepsFlags s t ∧
    KeepsInterrupts s t ∧ KeepsStack s t ∧ KeepsRam s t ∧ KeepsProgram s t

/-- OUTPUT to port `p` completes from every state: one event is logged; nothing else but `pc` changes. -/
def OutputsTo (i : Instr) (x : Reg) (p : Word) (len : Nat) (s : State) : Prop :=
  ∃ t, exec i s = .next t ∧ t.portLog = s.portLog ++ [.output p (s.reg x)] ∧ t.env = s.env ∧ t.pc = s.pcPlus len ∧
    KeepsRegsBut [] s t ∧ KeepsFlags s t ∧ KeepsInterrupts s t ∧ KeepsStack s t ∧ KeepsRam s t ∧ KeepsProgram s t

/-- FETCH from an address of the scratchpad whose cell holds `v` completes: rX takes `v`; nothing else but `pc`
changes. -/
def FetchesFrom (i : Instr) (x : Reg) (a : Word) (len : Nat) (s : State) : Prop :=
  ∀ v, a.toNat < 2 ^ s.config.scratchAddrBits → s.cell a.toNat = some v →
    ∃ t, exec i s = .next t ∧ LoadsInto x v len s t

/-- STORE to an address of the scratchpad completes: that cell takes rX; nothing else but `pc` changes. -/
def StoresTo (i : Instr) (x : Reg) (a : Word) (len : Nat) (s : State) : Prop :=
  a.toNat < 2 ^ s.config.scratchAddrBits →
    ∃ t, exec i s = .next t ∧ t.cell a.toNat = some (s.reg x) ∧ KeepsRamBut a.toNat s t ∧ t.pc = s.pcPlus len ∧
      KeepsRegsBut [] s t ∧ KeepsFlags s t ∧ KeepsInterrupts s t ∧ KeepsStack s t ∧ KeepsProgram s t ∧ KeepsPorts s t

/-- The instruction completes and leaves CARRY 1 exactly when the condition holds. -/
def CarryAfter (i : Instr) (s : State) (p : Prop) : Prop := ∃ t, exec i s = .next t ∧ (t.carry = true ↔ p)

end Sys2Proof.Machine

open Sys2Proof Sys2Proof.Machine

/-! ### Arithmetic (`40_arithmetic.md`) -/

/-- ADD and ADDCY, both forms: R110 to R113 with the flag equations that R120 marks as the spec's own decision, D8. -/
def Obligations.AdditionsGiveSumAndCarry : Prop :=
  ∀ (s : State) (x y : Reg) (kk : Word),
    (∃ t, exec (.addImm x kk) s = .next t ∧ SumInto x kk false 2 s t) ∧
    (∃ t, exec (.addReg x y) s = .next t ∧ SumInto x (s.reg y) false 1 s t) ∧
    (∃ t, exec (.addcyImm x kk) s = .next t ∧ SumInto x kk s.carry 2 s t) ∧
    (∃ t, exec (.addcyReg x y) s = .next t ∧ SumInto x (s.reg y) s.carry 1 s t)

/-- SUB and SUBC, both forms: R114 to R117 with the flag equations that R120 marks as the spec's own decision, D9. -/
def Obligations.SubtractionsGiveDifferenceAndBorrow : Prop :=
  ∀ (s : State) (x y : Reg) (kk : Word),
    (∃ t, exec (.subImm x kk) s = .next t ∧ DifferenceInto x kk false 2 s t) ∧
    (∃ t, exec (.subReg x y) s = .next t ∧ DifferenceInto x (s.reg y) false 1 s t) ∧
    (∃ t, exec (.subcImm x kk) s = .next t ∧ DifferenceInto x kk s.carry 2 s t) ∧
    (∃ t, exec (.subcReg x y) s = .next t ∧ DifferenceInto x (s.reg y) s.carry 1 s t)

/-- COMP, both forms: R118, R119; that the comparison is unsigned is the spec's own decision, D9. -/
def Obligations.ComparisonsWriteFlagsOnly : Prop :=
  ∀ (s : State) (x y : Reg) (kk : Word),
    (∃ t, exec (.compImm x kk) s = .next t ∧ ComparesWith x kk 2 s t) ∧
    (∃ t, exec (.compReg x y) s = .next t ∧ ComparesWith x (s.reg y) 1 s t)

/-- R118: "The flags equal those SUB rX, kk would leave"; likewise for rY. It rests on D9. -/
def Obligations.CompareLeavesTheFlagsOfSubtract : Prop :=
  ∀ (s t u : State) (x y : Reg) (kk : Word),
    (exec (.compImm x kk) s = .next t → exec (.subImm x kk) s = .next u → t.zero = u.zero ∧ t.carry = u.carry) ∧
    (exec (.compReg x y) s = .next t → exec (.subReg x y) s = .next u → t.zero = u.zero ∧ t.carry = u.carry)

/-- R113, use: ADD on the lower half, then ADDCY on the upper half, is a 32-bit addition with its carry out. It rests on
D8. -/
def Obligations.AddThenAddcyAddsThirtyTwoBits : Prop :=
  ∀ (s : State) (xl xh yl yh : Reg), xl ≠ xh → xl ≠ yh →
    ∃ t u, exec (.addReg xl yl) s = .next t ∧ exec (.addcyReg xh yh) t = .next u ∧
      65536 * (u.reg xh).toNat + (u.reg xl).toNat + 4294967296 * u.carry.toNat =
        (65536 * (s.reg xh).toNat + (s.reg xl).toNat) + (65536 * (s.reg yh).toNat + (s.reg yl).toNat)

/-- R117, use: SUB on the lower half, then SUBC on the upper half, is a 32-bit subtraction with its borrow. It rests on
D9. -/
def Obligations.SubThenSubcSubtractsThirtyTwoBits : Prop :=
  ∀ (s : State) (xl xh yl yh : Reg), xl ≠ xh → xl ≠ yh →
    ∃ t u, exec (.subReg xl yl) s = .next t ∧ exec (.subcReg xh yh) t = .next u ∧
      (65536 * (u.reg xh).toNat + (u.reg xl).toNat) + (65536 * (s.reg yh).toNat + (s.reg yl).toNat) =
        65536 * (s.reg xh).toNat + (s.reg xl).toNat + 4294967296 * u.carry.toNat

/-! ### Load and logical (`41_logical.md`) -/

/-- LOAD rX, rY, whole: R131. rX takes rY, Y = X changing nothing but `pc`, and its Word 1 is 0x30yx. -/
def Obligations.LoadRegisterWritesOneRegisterAndNoFlag : Prop :=
  ∀ (s : State) (x y : Reg),
    (∃ t, exec (.loadReg x y) s = .next t ∧ LoadsInto x (s.reg y) 1 s t) ∧
    exec (.loadReg x x) s = .next (s.advance 1) ∧
    (encode (.loadReg x y)).map BitVec.toNat = [0x3000 + 16 * y.val + x.val]

/-- LOAD rX, kk: R130. It reads no register: it gives the same register file whatever rX held, and no flag depends on kk.
That its `op` is 2E is a restored value, the spec's own decision D22. -/
def Obligations.LoadLiteralWritesOneRegisterAndNoFlag : Prop :=
  ∀ (s : State) (x : Reg) (kk v : Word),
    (∃ t, exec (.loadImm x kk) s = .next t ∧ LoadsInto x kk 2 s t) ∧
    exec (.loadImm x kk) (s.writeReg x v) = exec (.loadImm x kk) s ∧
    (encode (.loadImm x kk)).map BitVec.toNat = [0xAE00 + x.val, kk.toNat]

/-- XOR, both forms: R136, R137, with their Words 1 0xE80x and 0x6Ayx. Y = X clears the register. That ZERO is whether the
16-bit result is 0 is the spec's own choice, U10 of `93_implementation_defined.md` (R140, N15; log 14). -/
def Obligations.XorIsBitwiseAndClearsCarry : Prop :=
  ∀ (s : State) (x y : Reg) (kk : Word),
    (∃ t, exec (.xorImm x kk) s = .next t ∧ BitwiseInto (fun a b => a ^^ b) x kk 2 s t) ∧
    (∃ t, exec (.xorReg x y) s = .next t ∧ BitwiseInto (fun a b => a ^^ b) x (s.reg y) 1 s t) ∧
    (∃ t, exec (.xorReg x x) s = .next t ∧ t.reg x = 0 ∧ t.zero = true ∧ t.carry = false) ∧
    (encode (.xorImm x kk)).map BitVec.toNat = [0xE800 + x.val, kk.toNat] ∧
    (encode (.xorReg x y)).map BitVec.toNat = [0x6A00 + 16 * y.val + x.val]

/-- AND and OR, both forms: R132 to R135. That AND writes CARRY 0 is the spec's own decision, D10 (R140,
`90_conflicts.md` C1; log 13). The OR sign is the spec's reading of a damaged cell (`91_not_in_source.md` N6). -/
def Obligations.AndAndOrAreBitwiseAndClearCarry : Prop :=
  ∀ (s : State) (x y : Reg) (kk : Word),
    (∃ t, exec (.andImm x kk) s = .next t ∧ BitwiseInto (fun a b => a && b) x kk 2 s t) ∧
    (∃ t, exec (.andReg x y) s = .next t ∧ BitwiseInto (fun a b => a && b) x (s.reg y) 1 s t) ∧
    (∃ t, exec (.orImm x kk) s = .next t ∧ BitwiseInto (fun a b => a || b) x kk 2 s t) ∧
    (∃ t, exec (.orReg x y) s = .next t ∧ BitwiseInto (fun a b => a || b) x (s.reg y) 1 s t)

/-- TEST, both forms: R138, R139; that CARRY is 1 for an odd number of 1 bits is the spec's own decision, D11. -/
def Obligations.TestsWriteZeroAndOddParity : Prop :=
  ∀ (s : State) (x y : Reg) (kk : Word),
    (∃ t, exec (.testImm x kk) s = .next t ∧ TestsWith x kk 2 s t) ∧
    (∃ t, exec (.testReg x y) s = .next t ∧ TestsWith x (s.reg y) 1 s t)

/-! ### Shift and rotate (`42_shift_rotate.md`) -/

/-- RL, SL0, SL1, SLA and SLX: R150, R152 to R155; simultaneous assignment and ZERO are the spec's own decision, D12. -/
def Obligations.LeftFormsMoveOnePlace : Prop :=
  ∀ (s : State) (x : Reg),
    (∃ t, exec (.rl x) s = .next t ∧ MovesLeft x ((s.reg x).getLsbD 15) s t) ∧
    (∃ t, exec (.sl0 x) s = .next t ∧ MovesLeft x false s t) ∧
    (∃ t, exec (.sl1 x) s = .next t ∧ MovesLeft x true s t) ∧
    (∃ t, exec (.sla x) s = .next t ∧ MovesLeft x s.carry s t) ∧
    (∃ t, exec (.slx x) s = .next t ∧ MovesLeft x ((s.reg x).getLsbD 0) s t)

/-- RR, SR0, SR1, SRA and SRX: R151, R156 to R159; simultaneous assignment and ZERO are the spec's own decision, D12. -/
def Obligations.RightFormsMoveOnePlace : Prop :=
  ∀ (s : State) (x : Reg),
    (∃ t, exec (.rr x) s = .next t ∧ MovesRight x ((s.reg x).getLsbD 0) s t) ∧
    (∃ t, exec (.sr0 x) s = .next t ∧ MovesRight x false s t) ∧
    (∃ t, exec (.sr1 x) s = .next t ∧ MovesRight x true s t) ∧
    (∃ t, exec (.sra x) s = .next t ∧ MovesRight x s.carry s t) ∧
    (∃ t, exec (.srx x) s = .next t ∧ MovesRight x ((s.reg x).getLsbD 15) s t)

/-- R160, R153, R157, `90_conflicts.md` C6: after SL1 and SR1 ZERO is 0 on every input. -/
def Obligations.OneFillShiftsNeverSetZero : Prop :=
  ∀ (s t : State) (x : Reg), exec (.sl1 x) s = .next t ∨ exec (.sr1 x) s = .next t → t.zero = false

/-- R160: "a register and CARRY form one 17-bit rotate", so SRA undoes SLA and SLA undoes SRA, CARRY included. It rests
on D12. -/
def Obligations.SlaAndSraUndoEachOther : Prop :=
  ∀ (s : State) (x : Reg),
    (∃ t u, exec (.sla x) s = .next t ∧ exec (.sra x) t = .next u ∧ u.reg x = s.reg x ∧ u.carry = s.carry) ∧
    (∃ t u, exec (.sra x) s = .next t ∧ exec (.sla x) t = .next u ∧ u.reg x = s.reg x ∧ u.carry = s.carry)

/-- R150: "sixteen RLs restore the register"; RR likewise. It rests on D12. -/
def Obligations.SixteenRotatesRestoreTheRegister : Prop :=
  ∀ (s : State) (x : Reg),
    (∃ t, execTimes 16 (.rl x) s = .next t ∧ t.reg x = s.reg x) ∧
    (∃ t, execTimes 16 (.rr x) s = .next t ∧ t.reg x = s.reg x)

/-! ### Control transfer (`43_control_transfer.md`) -/

/-- R21, R245 with D30: the addresses the machine forms are taken modulo 2^PC_WIDTH, for every PC_WIDTH the spec
allows. -/
def Obligations.AddressesAreTakenModuloPcWidth : Prop :=
  ∀ (s : State) (v : Word) (n : Nat), s.config.pcWidth ≤ 16 →
    (s.pcPlus n).toNat = (s.pc.toNat + n) % 2 ^ s.config.pcWidth ∧
    (wrapPc s.config (v + 1)).toNat = (v.toNat + 1) % 2 ^ s.config.pcWidth ∧
    (wrapPc s.config (v - 1)).toNat = (v.toNat + 2 ^ s.config.pcWidth - 1) % 2 ^ s.config.pcWidth

/-- JUMP and its conditional forms: R171 to R175. -/
def Obligations.JumpsWriteOnlyThePc : Prop :=
  ∀ (s : State) (aaa : Word),
    JumpsTo (.jump aaa) true aaa s ∧ JumpsTo (.jumpC aaa) s.carry aaa s ∧ JumpsTo (.jumpNC aaa) (!s.carry) aaa s ∧
    JumpsTo (.jumpZ aaa) s.zero aaa s ∧ JumpsTo (.jumpNZ aaa) (!s.zero) aaa s

/-- CALL and its conditional forms where they complete: R176 to R180. What is pushed and the separate stack are the
spec's own decisions, D5, D6. -/
def Obligations.CallsPushTheirSecondWordsAddress : Prop :=
  ∀ (s : State) (aaa : Word),
    CallsTo (.call aaa) true aaa s ∧ CallsTo (.callC aaa) s.carry aaa s ∧ CallsTo (.callNC aaa) (!s.carry) aaa s ∧
    CallsTo (.callZ aaa) s.zero aaa s ∧ CallsTo (.callNZ aaa) (!s.zero) aaa s

/-- R186: a taken CALL form with the stack full is the fault StackOverflow (D6). -/
def Obligations.TakenCallsOnAFullStackFault : Prop :=
  ∀ (s : State) (aaa : Word), s.sp = s.config.stackDepth →
    exec (.call aaa) s = .fault .stackOverflow ∧
    (s.carry = true → exec (.callC aaa) s = .fault .stackOverflow) ∧
    (s.carry = false → exec (.callNC aaa) s = .fault .stackOverflow) ∧
    (s.zero = true → exec (.callZ aaa) s = .fault .stackOverflow) ∧
    (s.zero = false → exec (.callNZ aaa) s = .fault .stackOverflow)

/-- RETURN and its conditional forms where they complete: R181 to R185. TOS+1 and the removal of the top are the spec's
own decisions, D5, D6. -/
def Obligations.ReturnsPopTheTopOfStack : Prop :=
  ∀ (s : State),
    ReturnsFrom .returnAlways true s ∧ ReturnsFrom .returnC s.carry s ∧ ReturnsFrom .returnNC (!s.carry) s ∧
    ReturnsFrom .returnZ s.zero s ∧ ReturnsFrom .returnNZ (!s.zero) s

/-- R186, R223: a taken RETURN form, RETDIS and RETEN with the stack empty are the fault StackUnderflow (D6). -/
def Obligations.TakenReturnsOnAnEmptyStackFault : Prop :=
  ∀ (s : State), s.sp = 0 →
    exec .returnAlways s = .fault .stackUnderflow ∧
    (s.carry = true → exec .returnC s = .fault .stackUnderflow) ∧
    (s.carry = false → exec .returnNC s = .fault .stackUnderflow) ∧
    (s.zero = true → exec .returnZ s = .fault .stackUnderflow) ∧
    (s.zero = false → exec .returnNZ s = .fault .stackUnderflow) ∧
    exec .retdis s = .fault .stackUnderflow ∧ exec .reten s = .fault .stackUnderflow

/-- R176, R181: after a CALL, whatever ran in between, the RETURN that finds the stack as the CALL left it goes to the
instruction after the CALL and leaves the stack as it was before it (D5, D6). -/
def Obligations.ReturnResumesAfterTheCall : Prop :=
  ∀ (s t u : State) (aaa : Word), s.config.pcWidth ≤ 16 → exec (.call aaa) s = .next t → u.stack = t.stack →
    u.config = s.config →
    ∃ v, exec .returnAlways u = .next v ∧ v.pc = s.pcPlus 2 ∧ v.stack = s.stack

/-! ### Ports and scratchpad (`44_io_and_scratchpad.md`) -/

/-- INPUT, both forms: R200, R201; the port model is the spec's own decision, D14. The datum is the first one the
environment lists; when it lists none it is a free value (log 8). -/
def Obligations.InputsTakeTheEnvironmentsDatum : Prop :=
  ∀ (s : State) (x y : Reg) (pp : Word),
    InputsFrom (.inputInd x y) x (s.reg y) 1 s ∧ InputsFrom (.inputDir x pp) x pp 2 s ∧
    (∀ v l, s.env.data = v :: l → s.portDatum pp = v)

/-- OUTPUT, both forms: R202, R203; the port model is the spec's own decision, D14, and the fields of the indirect form
D21. -/
def Obligations.OutputsAppendOneEvent : Prop :=
  ∀ (s : State) (x y : Reg) (pp : Word),
    OutputsTo (.outputInd x y) x (s.reg y) 1 s ∧ OutputsTo (.outputDir x pp) x pp 2 s

/-- FETCH, both forms where they complete: R204, R205; the scratchpad's geometry is the spec's own decision, D13. -/
def Obligations.FetchesReadTheCellAddressed : Prop :=
  ∀ (s : State) (x y : Reg) (kk : Word),
    FetchesFrom (.fetchDir x kk) x kk 2 s ∧ FetchesFrom (.fetchInd x y) x (s.reg y) 1 s

/-- STORE, both forms where they complete: R206, R207; the scratchpad's geometry is the spec's own decision, D13. -/
def Obligations.StoresWriteOneCell : Prop :=
  ∀ (s : State) (x y : Reg) (kk : Word),
    StoresTo (.storeDir x kk) x kk 2 s ∧ StoresTo (.storeInd x y) x (s.reg y) 1 s

/-- R208: FETCH and STORE with an address at or above 2^SCRATCH_ADDR_BITS are the fault ScratchpadOutOfRange (D13). -/
def Obligations.AccessesBeyondTheScratchpadFault : Prop :=
  ∀ (s : State) (x y : Reg) (a : Word), 2 ^ s.config.scratchAddrBits ≤ a.toNat →
    exec (.fetchDir x a) s = .fault .scratchpadOutOfRange ∧ exec (.storeDir x a) s = .fault .scratchpadOutOfRange ∧
    (s.reg y = a → exec (.fetchInd x y) s = .fault .scratchpadOutOfRange ∧
      exec (.storeInd x y) s = .fault .scratchpadOutOfRange)

/-- The model's choice among the two options of R33, the fault (log 4): FETCH from a cell that holds no value is
ReadOfUnwritten. -/
def Obligations.FetchOfAnUnwrittenCellFaults : Prop :=
  ∀ (s : State) (x y : Reg) (a : Word), a.toNat < 2 ^ s.config.scratchAddrBits → s.cell a.toNat = none →
    exec (.fetchDir x a) s = .fault .readOfUnwritten ∧
    (s.reg y = a → exec (.fetchInd x y) s = .fault .readOfUnwritten)

/-- R56: "a FETCH returns the value of the most recent STORE to the same address in program order", here the FETCH right
after it, in every pairing of the direct and the indirect form (D24). -/
def Obligations.StoreThenFetchReturnsTheValue : Prop :=
  ∀ (s : State) (x y z : Reg) (kk : Word), (s.reg y).toNat < 2 ^ s.config.scratchAddrBits → s.reg y = kk →
    ∀ i ∈ [Instr.storeInd x y, Instr.storeDir x kk], ∀ j ∈ [Instr.fetchInd z y, Instr.fetchDir z kk],
      ∃ t u, exec i s = .next t ∧ exec j t = .next u ∧ u.reg z = s.reg x

/-! ### System and interrupt (`45_system.md`, `60_exceptions.md`) -/

/-- NOP, whole: R220. It changes `pc` alone and never stops; it is the all-zeros word and no other Word 1; an interrupt
can be taken before it, in the step that would execute it. -/
def Obligations.NopMovesOnlyThePc : Prop :=
  ∀ s : State,
    (∃ t, exec .nop s = .next t ∧ t.pc = s.pcPlus 1 ∧ KeepsStack s t ∧ KeepsBeyondControl s t) ∧
    (∀ w1 : Word, decodePair s.config w1 0 = .ok .nop ↔ w1 = 0) ∧
    (s.ie = true → s.irqNow = true → s.fetchInstr = .ok .nop → step s = enterInterrupt s.tick)

/-- DISINT and ENINT: R221, R222. -/
def Obligations.DisintAndEnintWriteInterruptEnable : Prop :=
  ∀ s : State,
    (∃ t, exec .disint s = .next t ∧ t.ie = false ∧ t.pc = s.pcPlus 1 ∧ t.savedZero = s.savedZero ∧
      t.savedCarry = s.savedCarry ∧ KeepsRegsBut [] s t ∧ KeepsFlags s t ∧ KeepsStack s t ∧ KeepsRam s t ∧
      KeepsProgram s t ∧ KeepsPorts s t) ∧
    (∃ t, exec .enint s = .next t ∧ t.ie = true ∧ t.pc = s.pcPlus 1 ∧ t.savedZero = s.savedZero ∧
      t.savedCarry = s.savedCarry ∧ KeepsRegsBut [] s t ∧ KeepsFlags s t ∧ KeepsStack s t ∧ KeepsRam s t ∧
      KeepsProgram s t ∧ KeepsPorts s t)

/-- RETDIS and RETEN where they complete: R223, R224; that the flags come from SZ and SC is the spec's own decision,
D17. -/
def Obligations.InterruptReturnsRestoreTheFlags : Prop :=
  ∀ s : State, ReturnsFromInterrupt .retdis false s ∧ ReturnsFromInterrupt .reten true s

/-- Interrupt entry: R245, taken by a step exactly as R244 says; the sequence is the spec's own decision, D15, D16,
D18. -/
def Obligations.InterruptEntrySavesAndVectors : Prop :=
  ∀ s : State, s.ie = true → s.irqNow = true → s.sp < s.config.stackDepth →
    ∃ t, step s = .next t ∧ t.pc = s.config.intVector ∧ t.stack = wrapPc s.config (s.pc - 1) :: s.stack ∧
      t.savedZero = s.zero ∧ t.savedCarry = s.carry ∧ t.ie = false ∧ KeepsFlags s t ∧ KeepsRegsBut [] s t ∧
      KeepsRam s t ∧ KeepsProgram s t ∧ t.portLog = s.portLog ∧ t.env = s.tick.env

/-- R245, R186: interrupt entry with the stack full is the fault StackOverflow (D6). -/
def Obligations.InterruptEntryOnAFullStackFaults : Prop :=
  ∀ s : State, s.ie = true → s.irqNow = true → s.sp = s.config.stackDepth → step s = .fault .stackOverflow

/-- R247: after an interrupt entry, whatever the handler did, RETEN and RETDIS resume at the instruction that was about to
execute with both flags as they were; plain RETURN resumes at the same address with the handler's flags and IE. It rests
on D15 and D17. -/
def Obligations.InterruptReturnResumesTheProgram : Prop :=
  ∀ s t u : State, s.Inv → s.ie = true → s.irqNow = true → step s = .next t → u.stack = t.stack →
    u.savedZero = t.savedZero → u.savedCarry = t.savedCarry → u.config = s.config →
    (∃ v, exec .reten u = .next v ∧ v.pc = s.pc ∧ v.zero = s.zero ∧ v.carry = s.carry ∧ v.stack = s.stack ∧
      v.ie = true) ∧
    (∃ v, exec .retdis u = .next v ∧ v.pc = s.pc ∧ v.zero = s.zero ∧ v.carry = s.carry ∧ v.stack = s.stack ∧
      v.ie = false) ∧
    (∃ v, exec .returnAlways u = .next v ∧ v.pc = s.pc ∧ v.zero = u.zero ∧ v.carry = u.carry ∧ v.stack = s.stack ∧
      v.ie = u.ie)

/-- R243: "With IE = 0 the value of irq has no effect whatever", here over any number of steps during which IE stays 0:
two lists of samples of that length lead to the same outcome. The sampling model is the spec's own decision, D18. -/
def Obligations.MaskedInterruptInputHasNoEffect : Prop :=
  ∀ (n : Nat) (s : State) (l₁ l₂ rest : List Bool), l₁.length = n → l₂.length = n →
    (∀ k t, k < n → steps k (presentIrqs s (l₁ ++ rest)) = .next t → t.ie = false) →
    steps n (presentIrqs s (l₁ ++ rest)) = steps n (presentIrqs s (l₂ ++ rest))

/-- R24: what writes IE, with which value; that no instruction reads it, so that its outcome but for IE is the same with
IE the other way; that the fetch does not read it; and that the interrupt-taking condition does: with `irq` 1 the step is
an interrupt entry under IE 1 and executes the instruction fetched under IE 0. That entry writes IE 0 is the spec's own
decision, D15, and when `irq` is looked at is its decision D18 (R244, R245; log 14). -/
def Obligations.WhatWritesAndReadsInterruptEnable : Prop :=
  (∀ (i : Instr) (s t : State), exec i s = .next t →
    t.ie = (match i with
      | .disint | .retdis => false
      | .enint | .reten => true
      | _ => s.ie)) ∧
  (∀ s t : State, s.interruptTaken = true → step s = .next t → t.ie = false) ∧
  (∀ (i : Instr) (s t : State) (b : Bool), exec i s = .next t →
    ∃ u, exec i (s.setIe b) = .next u ∧ u.setIe t.ie = t) ∧
  (∀ (i : Instr) (s : State) (b : Bool) (f : Fault), exec i s = .fault f → exec i (s.setIe b) = .fault f) ∧
  (∀ (s : State) (b : Bool), (s.setIe b).fetchInstr = s.fetchInstr) ∧
  (∀ s : State, s.irqNow = true → step (s.setIe true) = enterInterrupt (s.setIe true).tick ∧
    ∀ i, s.fetchInstr = .ok i → step (s.setIe false) = exec i (s.setIe false).tick)

/-- R26: SZ and SC are written by interrupt entry alone; no instruction changes them (D15, D17). -/
def Obligations.OnlyInterruptEntryWritesTheSavedFlags : Prop :=
  ∀ s t : State, step s = .next t → s.interruptTaken = false →
    t.savedZero = s.savedZero ∧ t.savedCarry = s.savedCarry

/-! ### The step and the whole machine -/

/-- R34, R80: when the words at `pc` decode to an instruction, the step is that instruction's meaning, on the state whose
sample of `irq` is consumed; that state differs in the environment alone. -/
def Obligations.StepRunsTheDecodedInstruction : Prop :=
  ∀ (s : State) (w1 w2 : Word) (i : Instr) (rest : List Word),
    (s.ie && s.irqNow) = false → s.pc.toNat < s.config.progSize → s.progWord s.pc.toNat = w1 →
    (hasSecond w1 = true → s.pc.toNat + 1 < s.config.progSize ∧ s.progWord (s.pcPlus 1).toNat = w2) →
    decode s.config [w1, w2] = .ok (i, rest) →
    step s = exec i s.tick ∧ SameMachine s s.tick

/-- R61, R52: a step that would fetch Word 1 at or beyond PROG_SIZE, or Word 2 when Word 1 is at the last address of
program memory, is the fault FetchOutOfRange (D30), also when PROG_SIZE is 2^PC_WIDTH (log 16). Where Word 2 is there, it
is the word at `pc + 1`, odd or even. -/
def Obligations.FetchBeyondProgramMemoryFaults : Prop :=
  (∀ s : State, (s.ie && s.irqNow) = false →
    (s.config.progSize ≤ s.pc.toNat → step s = .fault .fetchOutOfRange) ∧
    (s.pc.toNat < s.config.progSize → hasSecond (s.progWord s.pc.toNat) = true →
      s.config.progSize ≤ s.pc.toNat + 1 → step s = .fault .fetchOutOfRange)) ∧
  (∀ s : State, s.config.legal → s.pc.toNat + 1 < s.config.progSize → hasSecond (s.progWord s.pc.toNat) = true →
    s.fetchWords = .ok [s.progWord s.pc.toNat, s.progWord (s.pc.toNat + 1)])

/-- R84: a JUMP or CALL form whose Word 2 has a bit at or above PC_WIDTH is the fault AddressOutOfRange, taken or not
(D3). -/
def Obligations.TargetsBeyondPcWidthFaultAtDecode : Prop :=
  ∀ (s : State) (i : Instr) (aaa : Word), (s.ie && s.irqNow) = false → i.target = some aaa →
    2 ^ s.config.pcWidth ≤ aaa.toNat → s.pc.toNat + 1 < s.config.progSize →
    encode i = [s.progWord s.pc.toNat, s.progWord (s.pcPlus 1).toNat] → step s = .fault .addressOutOfRange

/-- R87, R88: a step at a Word 1 that fits no row, its Word 2 if any within program memory, is the fault
IllegalInstruction. Those Words 1 are the ones the rules list: an odd `op`; an `op` of 6C, 6E, 78, 7A, 7C, 7E; and, for
the row of a listed `op`, bit 15 that disagrees with the row or a 1 in a field that must be zero. It rests on the spec's
own decision D20. -/
def Obligations.UnlistedOpcodesFault : Prop :=
  (∀ s : State, (s.ie && s.irqNow) = false → s.pc.toNat < s.config.progSize →
    (hasSecond (s.progWord s.pc.toNat) = true → s.pc.toNat + 1 < s.config.progSize) →
    rowFor (s.progWord s.pc.toNat) = none → step s = .fault .illegalInstruction) ∧
  (∀ w1 : Word, rowFor w1 = none ↔
    w1.getLsbD 8 = true ∨ w1.extractLsb' 8 7 ∈ [0x6C, 0x6E, 0x78, 0x7A, 0x7C, 0x7E] ∨
      ∃ r ∈ opcodeMap, r.op = w1.extractLsb' 8 7 ∧
        (w1.getLsbD 15 ≠ formatSecond r.format ∨ (w1 &&& formatMask r.format).extractLsb' 0 8 ≠ 0))

/-- R22 and R23. A row whose flag columns are `-` writes neither flag. A row that writes them takes no part of them over:
it leaves the same state whatever a flag was that it does not read; ADDCY, SUBC, SLA and SRA, which read CARRY, write it
with the carry, the borrow or the bit moved out; SL1 writes ZERO 0, OR and XOR write CARRY 0. The rows the rules list as
readers do read: some state has another next `pc` or another register with the flag the other way. No other row does:
its outcome is the same but for a flag it does not write. Interrupt entry copies ZERO to SZ and CARRY to SC and writes
neither. The saved copies are the spec's own decision, D15 and D17, and the values ADDCY, SUBC, SLA and SRA write its
decisions D8, D9 and D12 (log 14). -/
def Obligations.FlagsAreWrittenAndReadByTheListedRows : Prop :=
  (∀ (i : Instr) (s t : State), exec i s = .next t → writesFlags i = false → KeepsFlags s t) ∧
  (∀ (i : Instr) (s t : State) (b : Bool), exec i s = .next t → readsZero i = false →
    exec i (s.setFlags b s.carry) = .next (if writesFlags i = true then t else t.setFlags b t.carry)) ∧
  (∀ (i : Instr) (s t : State) (b : Bool), exec i s = .next t → readsCarry i = false →
    exec i (s.setFlags s.zero b) = .next (if writesFlags i = true then t else t.setFlags t.zero b)) ∧
  (∀ (i : Instr) (s : State) (b : Bool) (f : Fault), exec i s = .fault f →
    (readsZero i = false → exec i (s.setFlags b s.carry) = .fault f) ∧
    (readsCarry i = false → exec i (s.setFlags s.zero b) = .fault f)) ∧
  (∀ i : Instr, readsZero i = true → ∃ s t u : State, exec i (s.setFlags false s.carry) = .next t ∧
    exec i (s.setFlags true s.carry) = .next u ∧ (t.pc ≠ u.pc ∨ ∃ r, t.reg r ≠ u.reg r)) ∧
  (∀ i : Instr, readsCarry i = true → ∃ s t u : State, exec i (s.setFlags s.zero false) = .next t ∧
    exec i (s.setFlags s.zero true) = .next u ∧ (t.pc ≠ u.pc ∨ ∃ r, t.reg r ≠ u.reg r)) ∧
  (∀ (s : State) (x y : Reg) (kk : Word),
    CarryAfter (.addcyImm x kk) s (65536 ≤ (s.reg x).toNat + kk.toNat + s.carry.toNat) ∧
    CarryAfter (.addcyReg x y) s (65536 ≤ (s.reg x).toNat + (s.reg y).toNat + s.carry.toNat) ∧
    CarryAfter (.subcImm x kk) s ((s.reg x).toNat < kk.toNat + s.carry.toNat) ∧
    CarryAfter (.subcReg x y) s ((s.reg x).toNat < (s.reg y).toNat + s.carry.toNat) ∧
    CarryAfter (.sla x) s ((s.reg x).getLsbD 15 = true) ∧ CarryAfter (.sra x) s ((s.reg x).getLsbD 0 = true)) ∧
  (∀ (s : State) (x y : Reg) (kk : Word), (∃ t, exec (.sl1 x) s = .next t ∧ t.zero = false) ∧
    ∀ i ∈ [Instr.orImm x kk, .orReg x y, .xorImm x kk, .xorReg x y], ∃ t, exec i s = .next t ∧ t.carry = false) ∧
  (∀ s t : State, s.interruptTaken = true → step s = .next t →
    t.savedZero = s.zero ∧ t.savedCarry = s.carry ∧ KeepsFlags s t)

/-- R20: an instruction changes no general register but its destination, and interrupt entry changes none. -/
def Obligations.OnlyTheDestinationRegisterChanges : Prop :=
  (∀ (i : Instr) (s t : State), exec i s = .next t → ∀ r, destination i ≠ some r → t.reg r = s.reg r) ∧
  (∀ s t : State, s.interruptTaken = true → step s = .next t → KeepsRegsBut [] s t)

/-- R25: the stack is pushed and popped by CALL, RETURN, RETDIS and RETEN and by interrupt entry alone, one entry at a
time; an entry pushes (R245). It rests on the spec's own decisions D6 and D15. -/
def Obligations.OnlyCallsAndReturnsTouchTheStack : Prop :=
  (∀ (i : Instr) (s t : State), exec i s = .next t →
    (usesStack i = false → t.stack = s.stack) ∧
    (t.stack = s.stack ∨ (∃ v, t.stack = v :: s.stack) ∨ ∃ v, s.stack = v :: t.stack)) ∧
  (∀ s t : State, s.interruptTaken = true → step s = .next t → ∃ v, t.stack = v :: s.stack)

/-- R53: STORE alone writes the scratchpad, and every executed INPUT and OUTPUT is exactly one event of the port log, no
other instruction and no interrupt entry any (D13, D14). -/
def Obligations.OneEventPerPortInstructionAndStoresAloneWrite : Prop :=
  (∀ (i : Instr) (s t : State), exec i s = .next t →
    match i with
    | .inputInd _ _ | .inputDir _ _ => (∃ p v, t.portLog = s.portLog ++ [.input p v]) ∧ KeepsRam s t
    | .outputInd _ _ | .outputDir _ _ => (∃ p v, t.portLog = s.portLog ++ [.output p v]) ∧ KeepsRam s t
    | .storeDir _ _ | .storeInd _ _ => KeepsPorts s t
    | _ => KeepsPorts s t ∧ KeepsRam s t) ∧
  (∀ s t : State, s.interruptTaken = true → step s = .next t → t.portLog = s.portLog ∧ KeepsRam s t)

/-- R28, R59: no step changes program memory or a parameter (D25). -/
def Obligations.StepsNeverChangeTheProgram : Prop :=
  ∀ s t : State, step s = .next t → t.prog = s.prog ∧ t.config = s.config

/-- R275: at the end-of-run loop a step answers the same machine; only the environment has moved on. The convention is the
spec's own decision, D27. -/
def Obligations.EndOfRunLoopChangesNothing : Prop :=
  ∀ s : State, endOfRun s = true → step s = .next s.tick ∧ SameMachine s s.tick

/-- R241: a step answers a next state or one of the seven faults; it refuses nothing. -/
def Obligations.StepsNeverRefuse : Prop :=
  ∀ (s : State) (r : Refusal), step s ≠ .refused r

/-- R32, R270: what reset leaves, for any parameters, program, power-up values and environment. The values are the spec's
own decision, D19. -/
def Obligations.ResetLeavesTheStatedValues : Prop :=
  ∀ (c : Config) (u : PowerUp) (e : Env),
    (State.resetWith c u e).pc = 0 ∧ (State.resetWith c u e).zero = false ∧ (State.resetWith c u e).carry = false ∧
    (State.resetWith c u e).ie = false ∧ (State.resetWith c u e).sp = 0 ∧ (State.resetWith c u e).portLog = [] ∧
    State.reset = State.resetWith Config.default PowerUp.blank Env.free

/-- The model's invariant (`State.Inv`) holds right after reset, whenever the parameters are right and what is placed in
the memories is in form; so it holds at `State.reset`, whose STACK_DEPTH and INT_VECTOR are the model's choice (log 1). -/
def Obligations.ResetMeetsTheInvariant : Prop :=
  (∀ (c : Config) (u : PowerUp) (e : Env), c.legal → Memory.wf .scratchpad u.ram →
    (∀ d ∈ u.ram, d.1 < 2 ^ c.scratchAddrBits) → Memory.wf .program u.prog → (∀ d ∈ u.prog, d.1 < c.progSize) →
    (State.resetWith c u e).Inv) ∧ State.reset.Inv

/-- The invariant is kept by every step: `pc` and stack entries stay PC_WIDTH bits wide (R21, R25), the stack holds at
most STACK_DEPTH entries (R25), the memories stay in canonical form within their sizes (R27, R28; log 10). -/
def Obligations.StepKeepsTheInvariant : Prop :=
  ∀ s t : State, s.Inv → step s = .next t → t.Inv

/-! ### Decoding (`30_encoding.md`) -/

/-- R83 to R86: every well-formed instruction, with every operand, decodes from its own words, whatever words follow. -/
def Obligations.DecodeOfEncodeIsTheInstruction : Prop :=
  ∀ (c : Config) (i : Instr) (rest : List Word), i.wellFormed c = true → decode c (encode i ++ rest) = .ok (i, rest)

/-- R86, R88: words that decode are exactly the words of the instruction they decode to; no bit is ignored (D20). -/
def Obligations.DecodedWordsAreTheEncoding : Prop :=
  ∀ (c : Config) (ws rest : List Word) (i : Instr), decode c ws = .ok (i, rest) → ws = encode i ++ rest

/-- R87, R88: the Words 1 that fit no row are exactly those with which no instruction's words begin (D20). -/
def Obligations.IllegalWordsAreThoseNoInstructionBegins : Prop :=
  ∀ w1 : Word, rowFor w1 = none ↔ ∀ i : Instr, (encode i).head? ≠ some w1

/-- R86: "At most one row fits". -/
def Obligations.AtMostOneRowFits : Prop :=
  ∀ w1 : Word, (opcodeMap.filter (fun r => rowFits r w1)).length ≤ 1

/-- R85, one word of each family written out bit by bit, at X = A and Y = B, kk = 0x1234. -/
def Obligations.WordsOfTheTableDecode : Prop :=
  decode Config.default [0b1000001000001010, 0x1234] = .ok (.addImm 10 0x1234, []) ∧
  decode Config.default [0b0101111010111010] = .ok (.subReg 10 11, []) ∧
  decode Config.default [0b0110011010111010] = .ok (.testReg 10 11, []) ∧
  decode Config.default [0b0101101000001010] = .ok (.srx 10, []) ∧
  decode Config.default [0b1001011000000000, 0x1234] = .ok (.callNZ 0x1234, []) ∧
  decode Config.default [0b0011011010111010] = .ok (.outputInd 10 11, []) ∧
  decode Config.default [0b1111010000001010, 0x1234] = .ok (.storeDir 10 0x1234, []) ∧
  decode Config.default [0b0100011000000000] = .ok (.reten, [])

/-- R89, whole. Two states that agree on program memory, `pc` and the parameters fetch the same instruction, whatever
else they hold: no bit of any other state changes how a word decodes. The "2nd" bit alone says how many words decoding
takes. NOP, and nothing else, is the word 0x0000. -/
def Obligations.NoStateBitChangesDecoding : Prop :=
  (∀ s t : State, t.config = s.config → t.pc = s.pc → (∀ a, t.progWord a = s.progWord a) →
    t.fetchInstr = s.fetchInstr) ∧
  (∀ (c : Config) (w1 w2 : Word) (rest left : List Word) (i : Instr), decode c (w1 :: w2 :: rest) = .ok (i, left) →
    left = (if w1.getLsbD 15 = true then rest else w2 :: rest)) ∧
  (∀ (c : Config) (rest : List Word), decode c (0 :: rest) = .ok (.nop, rest)) ∧
  (∀ i : Instr, (encode i).head? = some 0 → i = .nop)

/-- R51, R4: a host's byte image, in either HOST_BYTE_ORDER, gives back the words it was made from. -/
def Obligations.ByteImagesGiveBackTheirWords : Prop :=
  ∀ (o : ByteOrder) (ws : List Word), wordsOfBytes o (ws.flatMap (bytesOfWord o)) = ws
end

