-- ==== Sys2Proof/Laws/Decode.lean ====
section
/-! SUPPORT. The fields of Word 1 read back, and which row a Word 1 fits. -/

namespace Sys2Proof

theorem append_inj_byte {a b c d : BitVec 8} : a ++ b = c ++ d ↔ a = c ∧ b = d := by
  constructor
  · intro h
    have h1 := congrArg (BitVec.extractLsb' 8 8) h
    have h2 := congrArg (BitVec.extractLsb' 0 8) h
    rw [BitVec.extractLsb'_append_eq_of_le (by omega), BitVec.extractLsb'_append_eq_of_le (by omega), Nat.sub_self,
      BitVec.extractLsb'_eq_self, BitVec.extractLsb'_eq_self] at h1
    rw [BitVec.extractLsb'_append_eq_right, BitVec.extractLsb'_append_eq_right] at h2
    exact ⟨h1, h2⟩
  · rintro ⟨rfl, rfl⟩; rfl

/-- Word 1 as its upper byte, "2nd" and `op`, before its lower byte, Y and X (`30_encoding.md` R81). -/
theorem word1_bytes (second : Bool) (op : BitVec 7) (y x : Reg) :
    word1 second op y x =
      ((BitVec.ofBool second ++ op : BitVec 8) ++ (BitVec.ofFin (w := 4) y ++ BitVec.ofFin (w := 4) x : BitVec 8)) :=
  BitVec.append_assoc

@[simp] theorem fieldX_word1 (second : Bool) (op : BitVec 7) (y x : Reg) : fieldX (word1 second op y x) = x := by
  simp only [fieldX, word1]
  rw [BitVec.extractLsb'_append_eq_right]

@[simp] theorem fieldY_word1 (second : Bool) (op : BitVec 7) (y x : Reg) : fieldY (word1 second op y x) = y := by
  simp only [fieldY, word1]
  rw [BitVec.extractLsb'_append_eq_of_le (by omega), Nat.sub_self, BitVec.extractLsb'_append_eq_right]

@[simp] theorem hasSecond_word1 (second : Bool) (op : BitVec 7) (y x : Reg) :
    hasSecond (word1 second op y x) = second := by
  simp only [hasSecond, word1, BitVec.getLsbD_append]
  cases second <;> simp

/-- The value of a concatenation is the upper part scaled plus the lower part. -/
theorem toNat_append_add {m n : Nat} (a : BitVec m) (b : BitVec n) : (a ++ b).toNat = a.toNat * 2 ^ n + b.toNat := by
  rw [BitVec.toNat_append, ← Nat.shiftLeft_add_eq_or_of_lt b.isLt, Nat.shiftLeft_eq]

/-- Word 1 as a number (`30_encoding.md` R81). -/
theorem word1_toNat (second : Bool) (op : BitVec 7) (y x : Reg) :
    (word1 second op y x).toNat = 32768 * second.toNat + 256 * op.toNat + 16 * y.val + x.val := by
  simp only [word1, toNat_append_add, BitVec.toNat_ofBool, BitVec.toNat_ofFin]
  omega

/-- Every Word 1 is made of its four fields (`30_encoding.md` R81). -/
theorem word1_of_fields (w1 : Word) :
    word1 (hasSecond w1) (w1.extractLsb' 8 7) (fieldY w1) (fieldX w1) = w1 := by
  show BitVec.ofBool (w1.getLsbD 15) ++ w1.extractLsb' 8 7 ++ w1.extractLsb' 4 4 ++ w1.extractLsb' 0 4 = w1
  apply BitVec.eq_of_getLsbD_eq
  intro i hi
  simp only [BitVec.getLsbD_append, BitVec.getLsbD_extractLsb']
  interval_cases i <;> simp

/-- The masked lower byte is zero: which fields each format requires to be zero (`30_encoding.md` R88). -/
def zeroFields (f : Format) (y x : Reg) : Bool :=
  match f with
  | .n | .a => y == 0 && x == 0
  | .r | .ri => y == 0
  | .rr => true

/-- The lower byte of each format's mask. -/
def lowMask (f : Format) : BitVec 8 :=
  match f with
  | .n | .a => 0xFF
  | .r | .ri => 0xF0
  | .rr => 0x00

theorem formatMask_bytes (f : Format) : formatMask f = ((0xFF : BitVec 8) ++ lowMask f) := by
  cases f <;> decide

theorem lowMask_fields (f : Format) (y x : Reg) :
    ((BitVec.ofFin (w := 4) y ++ BitVec.ofFin (w := 4) x : BitVec 8) &&& lowMask f = 0) ↔ zeroFields f y x = true := by
  revert y x
  cases f <;> decide

/-- Word 1 fits a row when "2nd" and `op` are the row's and the fields the format shows as zeros are zeros
(`30_encoding.md` R86, R88). -/
theorem rowFits_word1 (r : Row) (second : Bool) (op : BitVec 7) (y x : Reg) :
    rowFits r (word1 second op y x) =
      (second == formatSecond r.format && op == r.op && zeroFields r.format y x) := by
  have hand : ∀ b : BitVec 8, b &&& 0xFF = b := by decide
  have htop : (BitVec.ofBool second ++ op : BitVec 8) = BitVec.ofBool (formatSecond r.format) ++ r.op ↔
      second = formatSecond r.format ∧ op = r.op := by
    constructor
    · intro h
      have h1 := congrArg (BitVec.extractLsb' 7 1) h
      have h2 := congrArg (BitVec.extractLsb' 0 7) h
      rw [BitVec.extractLsb'_append_eq_of_le (by omega), BitVec.extractLsb'_append_eq_of_le (by omega), Nat.sub_self,
        BitVec.extractLsb'_eq_self, BitVec.extractLsb'_eq_self] at h1
      rw [BitVec.extractLsb'_append_eq_right, BitVec.extractLsb'_append_eq_right] at h2
      refine ⟨?_, h2⟩
      revert h1
      cases second <;> cases formatSecond r.format <;> decide
    · rintro ⟨rfl, rfl⟩; rfl
  rw [Bool.eq_iff_iff]
  simp only [rowFits, rowPattern, word1_bytes, formatMask_bytes, beq_iff_eq, Bool.and_eq_true]
  rw [BitVec.and_append, append_inj_byte, hand, htop, lowMask_fields]

/-- The row of a Word 1 is looked up by "2nd", `op` and the fields that must be zero. -/
theorem rowFor_word1 (second : Bool) (op : BitVec 7) (y x : Reg) :
    rowFor (word1 second op y x) =
      opcodeMap.find? (fun r => second == formatSecond r.format && op == r.op && zeroFields r.format y x) := by
  simp only [rowFor, rowFits_word1]

/-- What decoding two words answers when the row is known. -/
theorem decodePair_of_row {c : Config} {w1 w2 : Word} {r : Row} (h : rowFor w1 = some r) :
    decodePair c w1 w2 =
      if (r.make (fieldX w1) (fieldY w1) w2).wellFormed c then .ok (r.make (fieldX w1) (fieldY w1) w2)
      else .error .addressOutOfRange := by
  simp only [decodePair, h]

/-- Every instruction that decodes is well formed (`30_encoding.md` R84). -/
theorem decodePair_wellFormed {c : Config} {w1 w2 : Word} {i : Instr} (h : decodePair c w1 w2 = .ok i) :
    i.wellFormed c = true := by
  unfold decodePair at h
  cases hr : rowFor w1 with
  | none => simp [hr] at h
  | some r =>
    simp only [hr] at h
    split at h
    · next hw => rw [← Except.ok.inj h]; exact hw
    · exact absurd h (by simp)

/-- Every instruction that decodes from a list of words is well formed (`30_encoding.md` R84). -/
theorem decode_wellFormed {c : Config} {ws rest : List Word} {i : Instr} (h : decode c ws = .ok (i, rest)) :
    i.wellFormed c = true := by
  have key : ∀ {e : Except DecodeReject Instr} {l : List Word}, e.map (fun j => (j, l)) = .ok (i, rest) → e = .ok i := by
    intro e l he
    cases e with
    | error => simp [Except.map] at he
    | ok j =>
      simp only [Except.map, Except.ok.injEq, Prod.mk.injEq] at he
      rw [he.1]
  unfold decode at h
  split at h
  · exact absurd h (by simp)
  · split at h
    · split at h
      · exact absurd h (by simp)
      · exact decodePair_wellFormed (key h)
    · exact decodePair_wellFormed (key h)

end Sys2Proof
end

