-- ==== Sys2Proof/Laws/Flags.lean ====
section
/-! SUPPORT. The results and flags, in the words of the rules. -/

namespace Sys2Proof.Machine

@[simp] theorem zeroOf_eq_true (v : Word) : zeroOf v = true ↔ v = 0 := by simp [zeroOf]

@[simp] theorem addResult_zero (a b : Word) (c : Bool) : (addResult a b c).zero = zeroOf (addResult a b c).value := rfl

@[simp] theorem subResult_zero (a b : Word) (c : Bool) : (subResult a b c).zero = zeroOf (subResult a b c).value := rfl

/-- The sum modulo 65536 (`40_arithmetic.md` R120). -/
theorem addResult_value_toNat (a b : Word) (c : Bool) :
    (addResult a b c).value.toNat = (a.toNat + b.toNat + c.toNat) % 65536 := by
  simp [addResult]

/-- The carry out of bit 15 (`40_arithmetic.md` R120). -/
theorem addResult_carry (a b : Word) (c : Bool) :
    (addResult a b c).carry = decide (65536 ≤ a.toNat + b.toNat + c.toNat) := by
  have ha := a.isLt
  have hb := b.isLt
  have hc := Bool.toNat_le c
  simp only [addResult, Nat.testBit, Nat.shiftRight_eq_div_pow, Nat.one_and_eq_mod_two, Nat.reducePow]
  by_cases h : 65536 ≤ a.toNat + b.toNat + c.toNat
  · have : (a.toNat + b.toNat + c.toNat) / 65536 = 1 := by omega
    simp [this, h]
  · have : (a.toNat + b.toNat + c.toNat) / 65536 = 0 := by omega
    simp [this, h]

/-- The difference modulo 65536, without negative numbers (`40_arithmetic.md` R120). -/
theorem subResult_value_toNat (a b : Word) (c : Bool) :
    (subResult a b c).value.toNat = (a.toNat + 131072 - b.toNat - c.toNat) % 65536 := by
  have ha := a.isLt
  have hb := b.isLt
  have hc := Bool.toNat_le c
  simp only [subResult, BitVec.toNat_ofInt]
  omega

/-- The borrow (`40_arithmetic.md` R120). -/
theorem subResult_carry (a b : Word) (c : Bool) :
    (subResult a b c).carry = decide (a.toNat < b.toNat + c.toNat) := by
  simp only [subResult, decide_eq_decide]
  omega

/-- The bits of a left shift (`42_shift_rotate.md` R160). -/
theorem shiftLeft_bit (a : Word) (f : Bool) (i : Nat) (hi : i < 16) :
    (shiftLeft a f).value.getLsbD i = if i = 0 then f else a.getLsbD (i - 1) := by
  simp only [shiftLeft, BitVec.getLsbD_append, BitVec.getLsbD_extractLsb']
  rcases i with - | i
  · simp
  · have : i < 15 := by omega
    simp [this]

/-- The bits of a right shift (`42_shift_rotate.md` R160). -/
theorem shiftRight_bit (a : Word) (f : Bool) (i : Nat) (hi : i < 16) :
    (shiftRight a f).value.getLsbD i = if i = 15 then f else a.getLsbD (i + 1) := by
  simp only [shiftRight, BitVec.getLsbD_append, BitVec.getLsbD_extractLsb']
  by_cases h : i = 15
  · subst h; simp
  · have : i < 15 := by omega
    simp [h, this, Nat.add_comm]

end Sys2Proof.Machine
end

