-- ==== Sys2Proof/Laws/Memory.lean ====
section
/-! SUPPORT. The laws of a memory: a read after a write, the canonical form kept, and equal reads mean equal data. -/

namespace Sys2Proof.Machine

/-! ### The list of entries -/

@[simp] theorem Memory.lookup_nil (a : Nat) : Memory.lookup [] a = none := rfl

theorem Memory.lookup_cons (b : Nat) (v : Word) (m : Memory) (a : Nat) :
    Memory.lookup ((b, v) :: m) a = if a = b then some v else Memory.lookup m a := rfl

theorem Memory.lookup_insert (m : Memory) (a : Nat) (v : Word) (c : Nat) :
    Memory.lookup (Memory.insert m a v) c = if c = a then some v else Memory.lookup m c := by
  induction m with
  | nil => rfl
  | cons e m ih =>
    obtain ⟨b, w⟩ := e
    simp only [Memory.insert]
    split_ifs with h1 h2 h3 h3 <;> simp_all [Memory.lookup_cons]

theorem Memory.lookup_erase (m : Memory) (a c : Nat) :
    Memory.lookup (Memory.erase m a) c = if c = a then none else Memory.lookup m c := by
  induction m with
  | nil => simp [Memory.erase]
  | cons e m ih =>
    obtain ⟨b, w⟩ := e
    simp only [Memory.erase]
    split_ifs with h1 h2 h2 <;> simp_all [Memory.lookup_cons]

theorem Memory.mem_insert {m : Memory} {a : Nat} {v : Word} {c : Nat × Word} (h : c ∈ Memory.insert m a v) :
    c = (a, v) ∨ c ∈ m := by
  induction m with
  | nil => simpa [Memory.insert] using h
  | cons e m ih =>
    obtain ⟨b, w⟩ := e
    simp only [Memory.insert] at h
    split_ifs at h with h1 h2
    · simpa using h
    · rcases List.mem_cons.1 h with h | h
      · exact .inl h
      · exact .inr (List.mem_cons_of_mem _ h)
    · rcases List.mem_cons.1 h with h | h
      · exact .inr (h ▸ List.mem_cons_self)
      · rcases ih h with h | h
        · exact .inl h
        · exact .inr (List.mem_cons_of_mem _ h)

theorem Memory.mem_erase {m : Memory} {a : Nat} {c : Nat × Word} (h : c ∈ Memory.erase m a) : c ∈ m := by
  induction m with
  | nil => exact h
  | cons e m ih =>
    obtain ⟨b, w⟩ := e
    simp only [Memory.erase] at h
    split_ifs at h with h1
    · exact List.mem_cons_of_mem _ (ih h)
    · rcases List.mem_cons.1 h with h | h
      · exact h ▸ List.mem_cons_self
      · exact List.mem_cons_of_mem _ (ih h)

theorem Memory.insert_rising {m : Memory} (a : Nat) (v : Word) (h : m.Pairwise (fun c d => c.1 < d.1)) :
    (Memory.insert m a v).Pairwise (fun c d => c.1 < d.1) := by
  induction m with
  | nil => simp [Memory.insert]
  | cons e m ih =>
    obtain ⟨b, w⟩ := e
    obtain ⟨hb, hm⟩ := List.pairwise_cons.1 h
    simp only [Memory.insert]
    split_ifs with h1 h2
    · refine List.pairwise_cons.2 ⟨fun c hc => ?_, h⟩
      rcases List.mem_cons.1 hc with rfl | hc
      · exact h1
      · exact Nat.lt_trans h1 (hb c hc)
    · subst h2
      exact List.pairwise_cons.2 ⟨hb, hm⟩
    · refine List.pairwise_cons.2 ⟨fun c hc => ?_, ih hm⟩
      rcases Memory.mem_insert hc with rfl | hc
      · show b < a
        omega
      · exact hb c hc

theorem Memory.erase_rising {m : Memory} (a : Nat) (h : m.Pairwise (fun c d => c.1 < d.1)) :
    (Memory.erase m a).Pairwise (fun c d => c.1 < d.1) := by
  induction m with
  | nil => exact h
  | cons e m ih =>
    obtain ⟨b, w⟩ := e
    obtain ⟨hb, hm⟩ := List.pairwise_cons.1 h
    simp only [Memory.erase]
    split_ifs with h1
    · exact ih hm
    · exact List.pairwise_cons.2 ⟨fun c hc => hb c (Memory.mem_erase hc), ih hm⟩

/-! ### Reading and writing -/

/-- A read after a write: the value at the address written, every other address as before. -/
theorem Memory.read_write (sp : Space) (m : Memory) (a : Nat) (v : Word) (c : Nat) :
    Memory.read sp (Memory.write sp m a v) c = if c = a then some v else Memory.read sp m c := by
  unfold Memory.read Memory.write
  split_ifs with h1 h2 h2
  · subst h2; simp [Memory.lookup_erase, h1]
  · simp [Memory.lookup_erase, h2]
  · subst h2; simp [Memory.lookup_insert]
  · simp [Memory.lookup_insert, h2]

/-- A read of the address just written gives the value written. -/
@[simp] theorem Memory.read_write_same (sp : Space) (m : Memory) (a : Nat) (v : Word) :
    Memory.read sp (Memory.write sp m a v) a = some v := by
  simp [Memory.read_write]

/-- A write leaves every other address as it was. -/
theorem Memory.read_write_other (sp : Space) (m : Memory) (a : Nat) (v : Word) {c : Nat} (h : c ≠ a) :
    Memory.read sp (Memory.write sp m a v) c = Memory.read sp m c := by
  simp [Memory.read_write, h]

/-- An entry after a write is the one written or one that was there. -/
theorem Memory.mem_write {sp : Space} {m : Memory} {a : Nat} {v : Word} {c : Nat × Word}
    (h : c ∈ Memory.write sp m a v) : c = (a, v) ∨ c ∈ m := by
  unfold Memory.write at h
  split_ifs at h
  · exact .inr (Memory.mem_erase h)
  · exact Memory.mem_insert h

/-- The empty memory is in canonical form. -/
theorem Memory.wf_nil (sp : Space) : Memory.wf sp [] := ⟨List.Pairwise.nil, by simp⟩

/-- A write keeps the canonical form. -/
theorem Memory.write_wf {sp : Space} {m : Memory} (a : Nat) (v : Word) (h : Memory.wf sp m) :
    Memory.wf sp (Memory.write sp m a v) := by
  unfold Memory.write
  split_ifs with hv
  · exact ⟨Memory.erase_rising a h.1, fun c hc => h.2 c (Memory.mem_erase hc)⟩
  · refine ⟨Memory.insert_rising a v h.1, fun c hc => ?_⟩
    rcases Memory.mem_insert hc with rfl | hc
    · exact hv
    · exact h.2 c hc

end Sys2Proof.Machine
end

