-- ==== Sys2Proof/Laws/State.lean ====
section
/-! SUPPORT. What each update of the state does to each field and to each accessor: one lemma each, true by rfl. -/

namespace Sys2Proof.Machine

/-! ### writeReg -/

@[simp] theorem State.writeReg_config (s : State) (r : Reg) (v : Word) : (s.writeReg r v).config = s.config := rfl
@[simp] theorem State.writeReg_regs (s : State) (r : Reg) (v : Word) : (s.writeReg r v).regs = s.regs.set r v := rfl
@[simp] theorem State.writeReg_pc (s : State) (r : Reg) (v : Word) : (s.writeReg r v).pc = s.pc := rfl
@[simp] theorem State.writeReg_zero (s : State) (r : Reg) (v : Word) : (s.writeReg r v).zero = s.zero := rfl
@[simp] theorem State.writeReg_carry (s : State) (r : Reg) (v : Word) : (s.writeReg r v).carry = s.carry := rfl
@[simp] theorem State.writeReg_ie (s : State) (r : Reg) (v : Word) : (s.writeReg r v).ie = s.ie := rfl
@[simp] theorem State.writeReg_stack (s : State) (r : Reg) (v : Word) : (s.writeReg r v).stack = s.stack := rfl
@[simp] theorem State.writeReg_savedZero (s : State) (r : Reg) (v : Word) : (s.writeReg r v).savedZero = s.savedZero := rfl
@[simp] theorem State.writeReg_savedCarry (s : State) (r : Reg) (v : Word) : (s.writeReg r v).savedCarry = s.savedCarry := rfl
@[simp] theorem State.writeReg_ram (s : State) (r : Reg) (v : Word) : (s.writeReg r v).ram = s.ram := rfl
@[simp] theorem State.writeReg_prog (s : State) (r : Reg) (v : Word) : (s.writeReg r v).prog = s.prog := rfl
@[simp] theorem State.writeReg_portLog (s : State) (r : Reg) (v : Word) : (s.writeReg r v).portLog = s.portLog := rfl
@[simp] theorem State.writeReg_env (s : State) (r : Reg) (v : Word) : (s.writeReg r v).env = s.env := rfl
@[simp] theorem State.writeReg_sp (s : State) (r : Reg) (v : Word) : (s.writeReg r v).sp = s.sp := rfl
@[simp] theorem State.writeReg_cell (s : State) (r : Reg) (v : Word) (a : Nat) : (s.writeReg r v).cell a = s.cell a := rfl
@[simp] theorem State.writeReg_pcPlus (s : State) (r : Reg) (v : Word) (n : Nat) : (s.writeReg r v).pcPlus n = s.pcPlus n := rfl
@[simp] theorem State.writeReg_portDatum (s : State) (r : Reg) (v : Word) (q : Word) : (s.writeReg r v).portDatum q = s.portDatum q := rfl

/-! ### setFlags -/

@[simp] theorem State.setFlags_config (s : State) (z c : Bool) : (s.setFlags z c).config = s.config := rfl
@[simp] theorem State.setFlags_regs (s : State) (z c : Bool) : (s.setFlags z c).regs = s.regs := rfl
@[simp] theorem State.setFlags_pc (s : State) (z c : Bool) : (s.setFlags z c).pc = s.pc := rfl
@[simp] theorem State.setFlags_zero (s : State) (z c : Bool) : (s.setFlags z c).zero = z := rfl
@[simp] theorem State.setFlags_carry (s : State) (z c : Bool) : (s.setFlags z c).carry = c := rfl
@[simp] theorem State.setFlags_ie (s : State) (z c : Bool) : (s.setFlags z c).ie = s.ie := rfl
@[simp] theorem State.setFlags_stack (s : State) (z c : Bool) : (s.setFlags z c).stack = s.stack := rfl
@[simp] theorem State.setFlags_savedZero (s : State) (z c : Bool) : (s.setFlags z c).savedZero = s.savedZero := rfl
@[simp] theorem State.setFlags_savedCarry (s : State) (z c : Bool) : (s.setFlags z c).savedCarry = s.savedCarry := rfl
@[simp] theorem State.setFlags_ram (s : State) (z c : Bool) : (s.setFlags z c).ram = s.ram := rfl
@[simp] theorem State.setFlags_prog (s : State) (z c : Bool) : (s.setFlags z c).prog = s.prog := rfl
@[simp] theorem State.setFlags_portLog (s : State) (z c : Bool) : (s.setFlags z c).portLog = s.portLog := rfl
@[simp] theorem State.setFlags_env (s : State) (z c : Bool) : (s.setFlags z c).env = s.env := rfl
@[simp] theorem State.setFlags_sp (s : State) (z c : Bool) : (s.setFlags z c).sp = s.sp := rfl
@[simp] theorem State.setFlags_cell (s : State) (z c : Bool) (a : Nat) : (s.setFlags z c).cell a = s.cell a := rfl
@[simp] theorem State.setFlags_pcPlus (s : State) (z c : Bool) (n : Nat) : (s.setFlags z c).pcPlus n = s.pcPlus n := rfl
@[simp] theorem State.setFlags_portDatum (s : State) (z c : Bool) (q : Word) : (s.setFlags z c).portDatum q = s.portDatum q := rfl
@[simp] theorem State.setFlags_reg (s : State) (z c : Bool) (q : Reg) : (s.setFlags z c).reg q = s.reg q := rfl

/-! ### setPc -/

@[simp] theorem State.setPc_config (s : State) (t : Word) : (s.setPc t).config = s.config := rfl
@[simp] theorem State.setPc_regs (s : State) (t : Word) : (s.setPc t).regs = s.regs := rfl
@[simp] theorem State.setPc_pc (s : State) (t : Word) : (s.setPc t).pc = t := rfl
@[simp] theorem State.setPc_zero (s : State) (t : Word) : (s.setPc t).zero = s.zero := rfl
@[simp] theorem State.setPc_carry (s : State) (t : Word) : (s.setPc t).carry = s.carry := rfl
@[simp] theorem State.setPc_ie (s : State) (t : Word) : (s.setPc t).ie = s.ie := rfl
@[simp] theorem State.setPc_stack (s : State) (t : Word) : (s.setPc t).stack = s.stack := rfl
@[simp] theorem State.setPc_savedZero (s : State) (t : Word) : (s.setPc t).savedZero = s.savedZero := rfl
@[simp] theorem State.setPc_savedCarry (s : State) (t : Word) : (s.setPc t).savedCarry = s.savedCarry := rfl
@[simp] theorem State.setPc_ram (s : State) (t : Word) : (s.setPc t).ram = s.ram := rfl
@[simp] theorem State.setPc_prog (s : State) (t : Word) : (s.setPc t).prog = s.prog := rfl
@[simp] theorem State.setPc_portLog (s : State) (t : Word) : (s.setPc t).portLog = s.portLog := rfl
@[simp] theorem State.setPc_env (s : State) (t : Word) : (s.setPc t).env = s.env := rfl
@[simp] theorem State.setPc_sp (s : State) (t : Word) : (s.setPc t).sp = s.sp := rfl
@[simp] theorem State.setPc_cell (s : State) (t : Word) (a : Nat) : (s.setPc t).cell a = s.cell a := rfl
@[simp] theorem State.setPc_portDatum (s : State) (t : Word) (q : Word) : (s.setPc t).portDatum q = s.portDatum q := rfl
@[simp] theorem State.setPc_reg (s : State) (t : Word) (q : Reg) : (s.setPc t).reg q = s.reg q := rfl

/-! ### setIe -/

@[simp] theorem State.setIe_config (s : State) (b : Bool) : (s.setIe b).config = s.config := rfl
@[simp] theorem State.setIe_regs (s : State) (b : Bool) : (s.setIe b).regs = s.regs := rfl
@[simp] theorem State.setIe_pc (s : State) (b : Bool) : (s.setIe b).pc = s.pc := rfl
@[simp] theorem State.setIe_zero (s : State) (b : Bool) : (s.setIe b).zero = s.zero := rfl
@[simp] theorem State.setIe_carry (s : State) (b : Bool) : (s.setIe b).carry = s.carry := rfl
@[simp] theorem State.setIe_ie (s : State) (b : Bool) : (s.setIe b).ie = b := rfl
@[simp] theorem State.setIe_stack (s : State) (b : Bool) : (s.setIe b).stack = s.stack := rfl
@[simp] theorem State.setIe_savedZero (s : State) (b : Bool) : (s.setIe b).savedZero = s.savedZero := rfl
@[simp] theorem State.setIe_savedCarry (s : State) (b : Bool) : (s.setIe b).savedCarry = s.savedCarry := rfl
@[simp] theorem State.setIe_ram (s : State) (b : Bool) : (s.setIe b).ram = s.ram := rfl
@[simp] theorem State.setIe_prog (s : State) (b : Bool) : (s.setIe b).prog = s.prog := rfl
@[simp] theorem State.setIe_portLog (s : State) (b : Bool) : (s.setIe b).portLog = s.portLog := rfl
@[simp] theorem State.setIe_env (s : State) (b : Bool) : (s.setIe b).env = s.env := rfl
@[simp] theorem State.setIe_sp (s : State) (b : Bool) : (s.setIe b).sp = s.sp := rfl
@[simp] theorem State.setIe_cell (s : State) (b : Bool) (a : Nat) : (s.setIe b).cell a = s.cell a := rfl
@[simp] theorem State.setIe_pcPlus (s : State) (b : Bool) (n : Nat) : (s.setIe b).pcPlus n = s.pcPlus n := rfl
@[simp] theorem State.setIe_portDatum (s : State) (b : Bool) (q : Word) : (s.setIe b).portDatum q = s.portDatum q := rfl
@[simp] theorem State.setIe_reg (s : State) (b : Bool) (q : Reg) : (s.setIe b).reg q = s.reg q := rfl

/-! ### setStack -/

@[simp] theorem State.setStack_config (s : State) (k : List Word) : (s.setStack k).config = s.config := rfl
@[simp] theorem State.setStack_regs (s : State) (k : List Word) : (s.setStack k).regs = s.regs := rfl
@[simp] theorem State.setStack_pc (s : State) (k : List Word) : (s.setStack k).pc = s.pc := rfl
@[simp] theorem State.setStack_zero (s : State) (k : List Word) : (s.setStack k).zero = s.zero := rfl
@[simp] theorem State.setStack_carry (s : State) (k : List Word) : (s.setStack k).carry = s.carry := rfl
@[simp] theorem State.setStack_ie (s : State) (k : List Word) : (s.setStack k).ie = s.ie := rfl
@[simp] theorem State.setStack_stack (s : State) (k : List Word) : (s.setStack k).stack = k := rfl
@[simp] theorem State.setStack_savedZero (s : State) (k : List Word) : (s.setStack k).savedZero = s.savedZero := rfl
@[simp] theorem State.setStack_savedCarry (s : State) (k : List Word) : (s.setStack k).savedCarry = s.savedCarry := rfl
@[simp] theorem State.setStack_ram (s : State) (k : List Word) : (s.setStack k).ram = s.ram := rfl
@[simp] theorem State.setStack_prog (s : State) (k : List Word) : (s.setStack k).prog = s.prog := rfl
@[simp] theorem State.setStack_portLog (s : State) (k : List Word) : (s.setStack k).portLog = s.portLog := rfl
@[simp] theorem State.setStack_env (s : State) (k : List Word) : (s.setStack k).env = s.env := rfl
@[simp] theorem State.setStack_cell (s : State) (k : List Word) (a : Nat) : (s.setStack k).cell a = s.cell a := rfl
@[simp] theorem State.setStack_pcPlus (s : State) (k : List Word) (n : Nat) : (s.setStack k).pcPlus n = s.pcPlus n := rfl
@[simp] theorem State.setStack_portDatum (s : State) (k : List Word) (q : Word) : (s.setStack k).portDatum q = s.portDatum q := rfl
@[simp] theorem State.setStack_reg (s : State) (k : List Word) (q : Reg) : (s.setStack k).reg q = s.reg q := rfl

/-! ### setSaved -/

@[simp] theorem State.setSaved_config (s : State) (z c : Bool) : (s.setSaved z c).config = s.config := rfl
@[simp] theorem State.setSaved_regs (s : State) (z c : Bool) : (s.setSaved z c).regs = s.regs := rfl
@[simp] theorem State.setSaved_pc (s : State) (z c : Bool) : (s.setSaved z c).pc = s.pc := rfl
@[simp] theorem State.setSaved_zero (s : State) (z c : Bool) : (s.setSaved z c).zero = s.zero := rfl
@[simp] theorem State.setSaved_carry (s : State) (z c : Bool) : (s.setSaved z c).carry = s.carry := rfl
@[simp] theorem State.setSaved_ie (s : State) (z c : Bool) : (s.setSaved z c).ie = s.ie := rfl
@[simp] theorem State.setSaved_stack (s : State) (z c : Bool) : (s.setSaved z c).stack = s.stack := rfl
@[simp] theorem State.setSaved_savedZero (s : State) (z c : Bool) : (s.setSaved z c).savedZero = z := rfl
@[simp] theorem State.setSaved_savedCarry (s : State) (z c : Bool) : (s.setSaved z c).savedCarry = c := rfl
@[simp] theorem State.setSaved_ram (s : State) (z c : Bool) : (s.setSaved z c).ram = s.ram := rfl
@[simp] theorem State.setSaved_prog (s : State) (z c : Bool) : (s.setSaved z c).prog = s.prog := rfl
@[simp] theorem State.setSaved_portLog (s : State) (z c : Bool) : (s.setSaved z c).portLog = s.portLog := rfl
@[simp] theorem State.setSaved_env (s : State) (z c : Bool) : (s.setSaved z c).env = s.env := rfl
@[simp] theorem State.setSaved_sp (s : State) (z c : Bool) : (s.setSaved z c).sp = s.sp := rfl
@[simp] theorem State.setSaved_cell (s : State) (z c : Bool) (a : Nat) : (s.setSaved z c).cell a = s.cell a := rfl
@[simp] theorem State.setSaved_pcPlus (s : State) (z c : Bool) (n : Nat) : (s.setSaved z c).pcPlus n = s.pcPlus n := rfl
@[simp] theorem State.setSaved_portDatum (s : State) (z c : Bool) (q : Word) : (s.setSaved z c).portDatum q = s.portDatum q := rfl
@[simp] theorem State.setSaved_reg (s : State) (z c : Bool) (q : Reg) : (s.setSaved z c).reg q = s.reg q := rfl

/-! ### setRam -/

@[simp] theorem State.setRam_config (s : State) (m : Memory) : (s.setRam m).config = s.config := rfl
@[simp] theorem State.setRam_regs (s : State) (m : Memory) : (s.setRam m).regs = s.regs := rfl
@[simp] theorem State.setRam_pc (s : State) (m : Memory) : (s.setRam m).pc = s.pc := rfl
@[simp] theorem State.setRam_zero (s : State) (m : Memory) : (s.setRam m).zero = s.zero := rfl
@[simp] theorem State.setRam_carry (s : State) (m : Memory) : (s.setRam m).carry = s.carry := rfl
@[simp] theorem State.setRam_ie (s : State) (m : Memory) : (s.setRam m).ie = s.ie := rfl
@[simp] theorem State.setRam_stack (s : State) (m : Memory) : (s.setRam m).stack = s.stack := rfl
@[simp] theorem State.setRam_savedZero (s : State) (m : Memory) : (s.setRam m).savedZero = s.savedZero := rfl
@[simp] theorem State.setRam_savedCarry (s : State) (m : Memory) : (s.setRam m).savedCarry = s.savedCarry := rfl
@[simp] theorem State.setRam_ram (s : State) (m : Memory) : (s.setRam m).ram = m := rfl
@[simp] theorem State.setRam_prog (s : State) (m : Memory) : (s.setRam m).prog = s.prog := rfl
@[simp] theorem State.setRam_portLog (s : State) (m : Memory) : (s.setRam m).portLog = s.portLog := rfl
@[simp] theorem State.setRam_env (s : State) (m : Memory) : (s.setRam m).env = s.env := rfl
@[simp] theorem State.setRam_sp (s : State) (m : Memory) : (s.setRam m).sp = s.sp := rfl
@[simp] theorem State.setRam_pcPlus (s : State) (m : Memory) (n : Nat) : (s.setRam m).pcPlus n = s.pcPlus n := rfl
@[simp] theorem State.setRam_portDatum (s : State) (m : Memory) (q : Word) : (s.setRam m).portDatum q = s.portDatum q := rfl
@[simp] theorem State.setRam_reg (s : State) (m : Memory) (q : Reg) : (s.setRam m).reg q = s.reg q := rfl

/-! ### setProg -/

@[simp] theorem State.setProg_config (s : State) (m : Memory) : (s.setProg m).config = s.config := rfl
@[simp] theorem State.setProg_regs (s : State) (m : Memory) : (s.setProg m).regs = s.regs := rfl
@[simp] theorem State.setProg_pc (s : State) (m : Memory) : (s.setProg m).pc = s.pc := rfl
@[simp] theorem State.setProg_zero (s : State) (m : Memory) : (s.setProg m).zero = s.zero := rfl
@[simp] theorem State.setProg_carry (s : State) (m : Memory) : (s.setProg m).carry = s.carry := rfl
@[simp] theorem State.setProg_ie (s : State) (m : Memory) : (s.setProg m).ie = s.ie := rfl
@[simp] theorem State.setProg_stack (s : State) (m : Memory) : (s.setProg m).stack = s.stack := rfl
@[simp] theorem State.setProg_savedZero (s : State) (m : Memory) : (s.setProg m).savedZero = s.savedZero := rfl
@[simp] theorem State.setProg_savedCarry (s : State) (m : Memory) : (s.setProg m).savedCarry = s.savedCarry := rfl
@[simp] theorem State.setProg_ram (s : State) (m : Memory) : (s.setProg m).ram = s.ram := rfl
@[simp] theorem State.setProg_prog (s : State) (m : Memory) : (s.setProg m).prog = m := rfl
@[simp] theorem State.setProg_portLog (s : State) (m : Memory) : (s.setProg m).portLog = s.portLog := rfl
@[simp] theorem State.setProg_env (s : State) (m : Memory) : (s.setProg m).env = s.env := rfl
@[simp] theorem State.setProg_sp (s : State) (m : Memory) : (s.setProg m).sp = s.sp := rfl
@[simp] theorem State.setProg_cell (s : State) (m : Memory) (a : Nat) : (s.setProg m).cell a = s.cell a := rfl
@[simp] theorem State.setProg_pcPlus (s : State) (m : Memory) (n : Nat) : (s.setProg m).pcPlus n = s.pcPlus n := rfl
@[simp] theorem State.setProg_portDatum (s : State) (m : Memory) (q : Word) : (s.setProg m).portDatum q = s.portDatum q := rfl
@[simp] theorem State.setProg_reg (s : State) (m : Memory) (q : Reg) : (s.setProg m).reg q = s.reg q := rfl

/-! ### logEvent -/

@[simp] theorem State.logEvent_config (s : State) (e : PortEvent) : (s.logEvent e).config = s.config := rfl
@[simp] theorem State.logEvent_regs (s : State) (e : PortEvent) : (s.logEvent e).regs = s.regs := rfl
@[simp] theorem State.logEvent_pc (s : State) (e : PortEvent) : (s.logEvent e).pc = s.pc := rfl
@[simp] theorem State.logEvent_zero (s : State) (e : PortEvent) : (s.logEvent e).zero = s.zero := rfl
@[simp] theorem State.logEvent_carry (s : State) (e : PortEvent) : (s.logEvent e).carry = s.carry := rfl
@[simp] theorem State.logEvent_ie (s : State) (e : PortEvent) : (s.logEvent e).ie = s.ie := rfl
@[simp] theorem State.logEvent_stack (s : State) (e : PortEvent) : (s.logEvent e).stack = s.stack := rfl
@[simp] theorem State.logEvent_savedZero (s : State) (e : PortEvent) : (s.logEvent e).savedZero = s.savedZero := rfl
@[simp] theorem State.logEvent_savedCarry (s : State) (e : PortEvent) : (s.logEvent e).savedCarry = s.savedCarry := rfl
@[simp] theorem State.logEvent_ram (s : State) (e : PortEvent) : (s.logEvent e).ram = s.ram := rfl
@[simp] theorem State.logEvent_prog (s : State) (e : PortEvent) : (s.logEvent e).prog = s.prog := rfl
@[simp] theorem State.logEvent_portLog (s : State) (e : PortEvent) : (s.logEvent e).portLog = s.portLog ++ [e] := rfl
@[simp] theorem State.logEvent_env (s : State) (e : PortEvent) : (s.logEvent e).env = s.env := rfl
@[simp] theorem State.logEvent_sp (s : State) (e : PortEvent) : (s.logEvent e).sp = s.sp := rfl
@[simp] theorem State.logEvent_cell (s : State) (e : PortEvent) (a : Nat) : (s.logEvent e).cell a = s.cell a := rfl
@[simp] theorem State.logEvent_pcPlus (s : State) (e : PortEvent) (n : Nat) : (s.logEvent e).pcPlus n = s.pcPlus n := rfl
@[simp] theorem State.logEvent_portDatum (s : State) (e : PortEvent) (q : Word) : (s.logEvent e).portDatum q = s.portDatum q := rfl
@[simp] theorem State.logEvent_reg (s : State) (e : PortEvent) (q : Reg) : (s.logEvent e).reg q = s.reg q := rfl

/-! ### setEnv -/

@[simp] theorem State.setEnv_config (s : State) (e : Env) : (s.setEnv e).config = s.config := rfl
@[simp] theorem State.setEnv_regs (s : State) (e : Env) : (s.setEnv e).regs = s.regs := rfl
@[simp] theorem State.setEnv_pc (s : State) (e : Env) : (s.setEnv e).pc = s.pc := rfl
@[simp] theorem State.setEnv_zero (s : State) (e : Env) : (s.setEnv e).zero = s.zero := rfl
@[simp] theorem State.setEnv_carry (s : State) (e : Env) : (s.setEnv e).carry = s.carry := rfl
@[simp] theorem State.setEnv_ie (s : State) (e : Env) : (s.setEnv e).ie = s.ie := rfl
@[simp] theorem State.setEnv_stack (s : State) (e : Env) : (s.setEnv e).stack = s.stack := rfl
@[simp] theorem State.setEnv_savedZero (s : State) (e : Env) : (s.setEnv e).savedZero = s.savedZero := rfl
@[simp] theorem State.setEnv_savedCarry (s : State) (e : Env) : (s.setEnv e).savedCarry = s.savedCarry := rfl
@[simp] theorem State.setEnv_ram (s : State) (e : Env) : (s.setEnv e).ram = s.ram := rfl
@[simp] theorem State.setEnv_prog (s : State) (e : Env) : (s.setEnv e).prog = s.prog := rfl
@[simp] theorem State.setEnv_portLog (s : State) (e : Env) : (s.setEnv e).portLog = s.portLog := rfl
@[simp] theorem State.setEnv_env (s : State) (e : Env) : (s.setEnv e).env = e := rfl
@[simp] theorem State.setEnv_sp (s : State) (e : Env) : (s.setEnv e).sp = s.sp := rfl
@[simp] theorem State.setEnv_cell (s : State) (e : Env) (a : Nat) : (s.setEnv e).cell a = s.cell a := rfl
@[simp] theorem State.setEnv_pcPlus (s : State) (e : Env) (n : Nat) : (s.setEnv e).pcPlus n = s.pcPlus n := rfl
@[simp] theorem State.setEnv_reg (s : State) (e : Env) (q : Reg) : (s.setEnv e).reg q = s.reg q := rfl

/-! ### advance -/

@[simp] theorem State.advance_config (s : State) (len : Nat) : (s.advance len).config = s.config := rfl
@[simp] theorem State.advance_regs (s : State) (len : Nat) : (s.advance len).regs = s.regs := rfl
@[simp] theorem State.advance_pc (s : State) (len : Nat) : (s.advance len).pc = s.pcPlus len := rfl
@[simp] theorem State.advance_zero (s : State) (len : Nat) : (s.advance len).zero = s.zero := rfl
@[simp] theorem State.advance_carry (s : State) (len : Nat) : (s.advance len).carry = s.carry := rfl
@[simp] theorem State.advance_ie (s : State) (len : Nat) : (s.advance len).ie = s.ie := rfl
@[simp] theorem State.advance_stack (s : State) (len : Nat) : (s.advance len).stack = s.stack := rfl
@[simp] theorem State.advance_savedZero (s : State) (len : Nat) : (s.advance len).savedZero = s.savedZero := rfl
@[simp] theorem State.advance_savedCarry (s : State) (len : Nat) : (s.advance len).savedCarry = s.savedCarry := rfl
@[simp] theorem State.advance_ram (s : State) (len : Nat) : (s.advance len).ram = s.ram := rfl
@[simp] theorem State.advance_prog (s : State) (len : Nat) : (s.advance len).prog = s.prog := rfl
@[simp] theorem State.advance_portLog (s : State) (len : Nat) : (s.advance len).portLog = s.portLog := rfl
@[simp] theorem State.advance_env (s : State) (len : Nat) : (s.advance len).env = s.env := rfl
@[simp] theorem State.advance_sp (s : State) (len : Nat) : (s.advance len).sp = s.sp := rfl
@[simp] theorem State.advance_cell (s : State) (len : Nat) (a : Nat) : (s.advance len).cell a = s.cell a := rfl
@[simp] theorem State.advance_portDatum (s : State) (len : Nat) (q : Word) : (s.advance len).portDatum q = s.portDatum q := rfl
@[simp] theorem State.advance_reg (s : State) (len : Nat) (q : Reg) : (s.advance len).reg q = s.reg q := rfl

/-! ### setResult -/

@[simp] theorem State.setResult_config (s : State) (x : Reg) (r : AluResult) : (s.setResult x r).config = s.config := rfl
@[simp] theorem State.setResult_regs (s : State) (x : Reg) (r : AluResult) : (s.setResult x r).regs = s.regs.set x r.value := rfl
@[simp] theorem State.setResult_pc (s : State) (x : Reg) (r : AluResult) : (s.setResult x r).pc = s.pc := rfl
@[simp] theorem State.setResult_zero (s : State) (x : Reg) (r : AluResult) : (s.setResult x r).zero = r.zero := rfl
@[simp] theorem State.setResult_carry (s : State) (x : Reg) (r : AluResult) : (s.setResult x r).carry = r.carry := rfl
@[simp] theorem State.setResult_ie (s : State) (x : Reg) (r : AluResult) : (s.setResult x r).ie = s.ie := rfl
@[simp] theorem State.setResult_stack (s : State) (x : Reg) (r : AluResult) : (s.setResult x r).stack = s.stack := rfl
@[simp] theorem State.setResult_savedZero (s : State) (x : Reg) (r : AluResult) : (s.setResult x r).savedZero = s.savedZero := rfl
@[simp] theorem State.setResult_savedCarry (s : State) (x : Reg) (r : AluResult) : (s.setResult x r).savedCarry = s.savedCarry := rfl
@[simp] theorem State.setResult_ram (s : State) (x : Reg) (r : AluResult) : (s.setResult x r).ram = s.ram := rfl
@[simp] theorem State.setResult_prog (s : State) (x : Reg) (r : AluResult) : (s.setResult x r).prog = s.prog := rfl
@[simp] theorem State.setResult_portLog (s : State) (x : Reg) (r : AluResult) : (s.setResult x r).portLog = s.portLog := rfl
@[simp] theorem State.setResult_env (s : State) (x : Reg) (r : AluResult) : (s.setResult x r).env = s.env := rfl
@[simp] theorem State.setResult_sp (s : State) (x : Reg) (r : AluResult) : (s.setResult x r).sp = s.sp := rfl
@[simp] theorem State.setResult_cell (s : State) (x : Reg) (r : AluResult) (a : Nat) : (s.setResult x r).cell a = s.cell a := rfl
@[simp] theorem State.setResult_pcPlus (s : State) (x : Reg) (r : AluResult) (n : Nat) : (s.setResult x r).pcPlus n = s.pcPlus n := rfl
@[simp] theorem State.setResult_portDatum (s : State) (x : Reg) (r : AluResult) (q : Word) : (s.setResult x r).portDatum q = s.portDatum q := rfl

/-! ### setResultFlags -/

@[simp] theorem State.setResultFlags_config (s : State) (r : AluResult) : (s.setResultFlags r).config = s.config := rfl
@[simp] theorem State.setResultFlags_regs (s : State) (r : AluResult) : (s.setResultFlags r).regs = s.regs := rfl
@[simp] theorem State.setResultFlags_pc (s : State) (r : AluResult) : (s.setResultFlags r).pc = s.pc := rfl
@[simp] theorem State.setResultFlags_zero (s : State) (r : AluResult) : (s.setResultFlags r).zero = r.zero := rfl
@[simp] theorem State.setResultFlags_carry (s : State) (r : AluResult) : (s.setResultFlags r).carry = r.carry := rfl
@[simp] theorem State.setResultFlags_ie (s : State) (r : AluResult) : (s.setResultFlags r).ie = s.ie := rfl
@[simp] theorem State.setResultFlags_stack (s : State) (r : AluResult) : (s.setResultFlags r).stack = s.stack := rfl
@[simp] theorem State.setResultFlags_savedZero (s : State) (r : AluResult) : (s.setResultFlags r).savedZero = s.savedZero := rfl
@[simp] theorem State.setResultFlags_savedCarry (s : State) (r : AluResult) : (s.setResultFlags r).savedCarry = s.savedCarry := rfl
@[simp] theorem State.setResultFlags_ram (s : State) (r : AluResult) : (s.setResultFlags r).ram = s.ram := rfl
@[simp] theorem State.setResultFlags_prog (s : State) (r : AluResult) : (s.setResultFlags r).prog = s.prog := rfl
@[simp] theorem State.setResultFlags_portLog (s : State) (r : AluResult) : (s.setResultFlags r).portLog = s.portLog := rfl
@[simp] theorem State.setResultFlags_env (s : State) (r : AluResult) : (s.setResultFlags r).env = s.env := rfl
@[simp] theorem State.setResultFlags_sp (s : State) (r : AluResult) : (s.setResultFlags r).sp = s.sp := rfl
@[simp] theorem State.setResultFlags_cell (s : State) (r : AluResult) (a : Nat) : (s.setResultFlags r).cell a = s.cell a := rfl
@[simp] theorem State.setResultFlags_pcPlus (s : State) (r : AluResult) (n : Nat) : (s.setResultFlags r).pcPlus n = s.pcPlus n := rfl
@[simp] theorem State.setResultFlags_portDatum (s : State) (r : AluResult) (q : Word) : (s.setResultFlags r).portDatum q = s.portDatum q := rfl
@[simp] theorem State.setResultFlags_reg (s : State) (r : AluResult) (q : Reg) : (s.setResultFlags r).reg q = s.reg q := rfl

/-! ### portWrite -/

@[simp] theorem State.portWrite_config (s : State) (p v : Word) : (s.portWrite p v).config = s.config := rfl
@[simp] theorem State.portWrite_regs (s : State) (p v : Word) : (s.portWrite p v).regs = s.regs := rfl
@[simp] theorem State.portWrite_pc (s : State) (p v : Word) : (s.portWrite p v).pc = s.pc := rfl
@[simp] theorem State.portWrite_zero (s : State) (p v : Word) : (s.portWrite p v).zero = s.zero := rfl
@[simp] theorem State.portWrite_carry (s : State) (p v : Word) : (s.portWrite p v).carry = s.carry := rfl
@[simp] theorem State.portWrite_ie (s : State) (p v : Word) : (s.portWrite p v).ie = s.ie := rfl
@[simp] theorem State.portWrite_stack (s : State) (p v : Word) : (s.portWrite p v).stack = s.stack := rfl
@[simp] theorem State.portWrite_savedZero (s : State) (p v : Word) : (s.portWrite p v).savedZero = s.savedZero := rfl
@[simp] theorem State.portWrite_savedCarry (s : State) (p v : Word) : (s.portWrite p v).savedCarry = s.savedCarry := rfl
@[simp] theorem State.portWrite_ram (s : State) (p v : Word) : (s.portWrite p v).ram = s.ram := rfl
@[simp] theorem State.portWrite_prog (s : State) (p v : Word) : (s.portWrite p v).prog = s.prog := rfl
@[simp] theorem State.portWrite_portLog (s : State) (p v : Word) : (s.portWrite p v).portLog = s.portLog ++ [.output p v] := rfl
@[simp] theorem State.portWrite_env (s : State) (p v : Word) : (s.portWrite p v).env = s.env := rfl
@[simp] theorem State.portWrite_sp (s : State) (p v : Word) : (s.portWrite p v).sp = s.sp := rfl
@[simp] theorem State.portWrite_cell (s : State) (p v : Word) (a : Nat) : (s.portWrite p v).cell a = s.cell a := rfl
@[simp] theorem State.portWrite_pcPlus (s : State) (p v : Word) (n : Nat) : (s.portWrite p v).pcPlus n = s.pcPlus n := rfl
@[simp] theorem State.portWrite_portDatum (s : State) (p v : Word) (q : Word) : (s.portWrite p v).portDatum q = s.portDatum q := rfl
@[simp] theorem State.portWrite_reg (s : State) (p v : Word) (q : Reg) : (s.portWrite p v).reg q = s.reg q := rfl

/-! ### Reading a register after a write -/

/-- A register read after a write of a register. -/
@[simp] theorem State.writeReg_reg (s : State) (r : Reg) (v : Word) (q : Reg) :
    (s.writeReg r v).reg q = if q = r then v else s.reg q := by
  simp [State.writeReg, State.reg, Vector.getElem_set, Fin.ext_iff, eq_comm]

/-- A register read after a result is written. -/
@[simp] theorem State.setResult_reg (s : State) (x : Reg) (r : AluResult) (q : Reg) :
    (s.setResult x r).reg q = if q = x then r.value else s.reg q := by
  simp only [State.setResult, State.setFlags_reg, State.writeReg_reg]

/-! ### Writing back what is there -/

/-- Writing a register with the value it holds changes nothing. -/
@[simp] theorem State.writeReg_self (s : State) (r : Reg) : s.writeReg r (s.reg r) = s := by
  simp [State.writeReg, State.reg]

/-- Two writes of one register leave the second. -/
theorem State.writeReg_writeReg (s : State) (r : Reg) (v w : Word) :
    (s.writeReg r v).writeReg r w = s.writeReg r w := by
  simp [State.writeReg]

/-- Two states with the same registers, seen one by one, hold the same register file. -/
theorem State.regs_ext (s t : State) (h : ∀ r, t.reg r = s.reg r) : t.regs = s.regs := by
  refine Vector.ext fun i hi => ?_
  exact h ⟨i, hi⟩

end Sys2Proof.Machine
end

