-- ==== Sys2Proof/Laws/Ops.lean ====
section
/-! SUPPORT. For each shared operation, once, everything it can do. -/

namespace Sys2Proof.Machine

/-! ### The program counter -/

/-- A wrapped address is the address modulo 2^PC_WIDTH, for a width of at most 16. -/
theorem wrapPc_toNat (c : Config) (v : Word) (h : c.pcWidth ≤ 16) : (wrapPc c v).toNat = v.toNat % 2 ^ c.pcWidth := by
  have h1 : v.toNat % 2 ^ c.pcWidth < 2 ^ c.pcWidth := Nat.mod_lt _ (by positivity)
  have h2 : 2 ^ c.pcWidth ≤ 2 ^ 16 := Nat.pow_le_pow_right (by norm_num) h
  simp only [wrapPc, BitVec.toNat_ofNat]
  exact Nat.mod_eq_of_lt (by omega)

/-- A wrapped address fits PC_WIDTH. -/
theorem wrapPc_fits (c : Config) (v : Word) : (wrapPc c v).toNat < 2 ^ c.pcWidth := by
  simp only [wrapPc, BitVec.toNat_ofNat]
  exact Nat.lt_of_le_of_lt (Nat.mod_le _ _) (Nat.mod_lt _ (by positivity))

/-- An address that fits PC_WIDTH is its own wrapped address. -/
theorem wrapPc_of_fits (c : Config) (v : Word) (h : v.toNat < 2 ^ c.pcWidth) : wrapPc c v = v := by
  simp [wrapPc, Nat.mod_eq_of_lt h]

/-- Adding to a wrapped address and wrapping is wrapping the sum, for a width of at most 16. -/
theorem wrapPc_wrapPc_add (c : Config) (v k : Word) (h : c.pcWidth ≤ 16) :
    wrapPc c (wrapPc c v + k) = wrapPc c (v + k) := by
  apply BitVec.eq_of_toNat_eq
  rw [wrapPc_toNat c _ h, wrapPc_toNat c _ h, BitVec.toNat_add, BitVec.toNat_add, wrapPc_toNat c _ h]
  have hd : 2 ^ c.pcWidth ∣ 2 ^ 16 := Nat.pow_dvd_pow 2 h
  rw [Nat.mod_mod_of_dvd _ hd, Nat.mod_mod_of_dvd _ hd, Nat.mod_add_mod]

/-! ### The stack -/

/-- Push answers exactly when the stack is not full, with the wrapped value on top. -/
theorem State.push_eq_ok {s t : State} {v : Word} :
    s.push v = .ok t ↔ s.sp < s.config.stackDepth ∧ t = s.setStack (wrapPc s.config v :: s.stack) := by
  unfold State.push
  split_ifs with h
  · simp [Nat.not_lt.2 h]
  · simp [Nat.not_le.1 h, eq_comm]

/-- Push on a stack with room. -/
theorem State.push_of_room {s : State} (v : Word) (h : s.sp < s.config.stackDepth) :
    s.push v = .ok (s.setStack (wrapPc s.config v :: s.stack)) := State.push_eq_ok.2 ⟨h, rfl⟩

/-- Push faults exactly when the stack is full, with StackOverflow. -/
theorem State.push_eq_error {s : State} {v : Word} {f : Fault} :
    s.push v = .error f ↔ s.config.stackDepth ≤ s.sp ∧ f = .stackOverflow := by
  unfold State.push
  split_ifs with h
  · simp [h, eq_comm]
  · simp [h]

/-- Pop answers exactly when the stack holds an entry: it yields the top and removes it. -/
theorem State.pop_eq_ok {s t : State} {v : Word} :
    s.pop = .ok (v, t) ↔ ∃ k, s.stack = v :: k ∧ t = s.setStack k := by
  unfold State.pop
  cases hs : s.stack with
  | nil => simp
  | cons w k => simp only [Except.ok.injEq, Prod.mk.injEq, List.cons.injEq]; aesop

/-- Pop of a stack whose top is known. -/
theorem State.pop_of_cons {s : State} {v : Word} {k : List Word} (h : s.stack = v :: k) :
    s.pop = .ok (v, s.setStack k) := State.pop_eq_ok.2 ⟨k, h, rfl⟩

/-- Pop faults exactly when the stack is empty, with StackUnderflow. -/
theorem State.pop_eq_error {s : State} {f : Fault} : s.pop = .error f ↔ s.stack = [] ∧ f = .stackUnderflow := by
  unfold State.pop
  cases hs : s.stack <;> simp [eq_comm]

/-! ### The scratchpad -/

/-- RamAddr answers exactly on the addresses of cells. -/
theorem ramAddr_eq_ok {c : Config} {a : Word} {n : Nat} :
    ramAddr c a = .ok n ↔ a.toNat < 2 ^ c.scratchAddrBits ∧ n = a.toNat := by
  unfold ramAddr
  split_ifs with h <;> simp [h, eq_comm]

/-- RamAddr faults exactly beyond the scratchpad. -/
theorem ramAddr_eq_error {c : Config} {a : Word} {f : Fault} :
    ramAddr c a = .error f ↔ 2 ^ c.scratchAddrBits ≤ a.toNat ∧ f = .scratchpadOutOfRange := by
  unfold ramAddr
  split_ifs with h
  · simp [h]
  · simp only [Except.error.injEq, Nat.not_lt.1 h, true_and, eq_comm]

/-- A scratchpad read answers exactly for a cell that holds a value. -/
theorem State.ramRead_eq_ok {s : State} {a v : Word} :
    s.ramRead a = .ok v ↔ a.toNat < 2 ^ s.config.scratchAddrBits ∧ s.cell a.toNat = some v := by
  unfold State.ramRead ramAddr
  by_cases h : a.toNat < 2 ^ s.config.scratchAddrBits
  · cases hc : s.cell a.toNat <;> simp [h, hc]
  · simp [h]

/-- A scratchpad read faults beyond the scratchpad, and on a cell that holds no value. -/
theorem State.ramRead_eq_error {s : State} {a : Word} {f : Fault} :
    s.ramRead a = .error f ↔
      (2 ^ s.config.scratchAddrBits ≤ a.toNat ∧ f = .scratchpadOutOfRange) ∨
        (a.toNat < 2 ^ s.config.scratchAddrBits ∧ s.cell a.toNat = none ∧ f = .readOfUnwritten) := by
  unfold State.ramRead ramAddr
  by_cases h : a.toNat < 2 ^ s.config.scratchAddrBits
  · cases hc : s.cell a.toNat <;> simp [h, hc, Nat.not_le.2 h, eq_comm]
  · simp [h, Nat.not_lt.1 h, eq_comm]

/-- A scratchpad write answers exactly on the addresses of cells. -/
theorem State.ramWrite_eq_ok {s t : State} {a v : Word} :
    s.ramWrite a v = .ok t ↔
      a.toNat < 2 ^ s.config.scratchAddrBits ∧ t = s.setRam (Memory.write .scratchpad s.ram a.toNat v) := by
  unfold State.ramWrite ramAddr
  by_cases h : a.toNat < 2 ^ s.config.scratchAddrBits <;> simp [h, eq_comm]

/-- A scratchpad write faults exactly beyond the scratchpad. -/
theorem State.ramWrite_eq_error {s : State} {a v : Word} {f : Fault} :
    s.ramWrite a v = .error f ↔ 2 ^ s.config.scratchAddrBits ≤ a.toNat ∧ f = .scratchpadOutOfRange := by
  unfold State.ramWrite ramAddr
  by_cases h : a.toNat < 2 ^ s.config.scratchAddrBits
  · simp [h]
  · simp [h, Nat.not_lt.1 h, eq_comm]

/-- A cell of the scratchpad after a write of a cell. -/
@[simp] theorem State.setRam_write_cell (s : State) (n : Nat) (v : Word) (a : Nat) :
    (s.setRam (Memory.write .scratchpad s.ram n v)).cell a = if a = n then some v else s.cell a :=
  Memory.read_write .scratchpad s.ram n v a

/-! ### Control transfer -/

/-- A JUMP form always answers: the target when taken, the next instruction otherwise. -/
theorem jumpIf_eq (taken : Bool) (aaa : Word) (s : State) :
    jumpIf taken aaa s = .next (if taken then s.setPc aaa else s.advance 2) := by
  cases taken <;> rfl

/-- What a CALL form can do when it answers. -/
theorem callIf_eq_next {taken : Bool} {aaa : Word} {s t : State} :
    callIf taken aaa s = .next t ↔
      (taken = true ∧ s.sp < s.config.stackDepth ∧
          t = (s.setStack (wrapPc s.config (s.pcPlus 1) :: s.stack)).setPc aaa) ∨
        (taken = false ∧ t = s.advance 2) := by
  unfold callIf State.push
  cases taken
  · simp [eq_comm]
  · by_cases h : s.config.stackDepth ≤ s.sp
    · simp [h, Nat.not_lt.2 h]
    · simp [h, Nat.not_le.1 h, eq_comm]

/-- What a RETURN form can do when it answers. -/
theorem returnIf_eq_next {taken : Bool} {s t : State} :
    returnIf taken s = .next t ↔
      (taken = true ∧ ∃ v k, s.stack = v :: k ∧ t = (s.setStack k).setPc (wrapPc s.config (v + 1))) ∨
        (taken = false ∧ t = s.advance 1) := by
  unfold returnIf State.pop
  cases taken <;> cases hs : s.stack <;> simp [eq_comm]

/-! ### The interrupt -/

/-- What interrupt entry can do when it answers. -/
theorem enterInterrupt_eq_next {s t : State} :
    enterInterrupt s = .next t ↔
      s.sp < s.config.stackDepth ∧
        t = ((((s.setStack (wrapPc s.config (s.pc - 1) :: s.stack)).setSaved s.zero s.carry).setIe false).setPc
          s.config.intVector) := by
  unfold enterInterrupt State.push
  by_cases h : s.config.stackDepth ≤ s.sp
  · simp [h, Nat.not_lt.2 h]
  · simp [h, Nat.not_le.1 h, eq_comm]

/-- What a return from interrupt can do when it answers. -/
theorem returnFromInterrupt_eq_next {enable : Bool} {s t : State} :
    returnFromInterrupt enable s = .next t ↔
      ∃ v k, s.stack = v :: k ∧
        t = ((((s.setStack k).setFlags s.savedZero s.savedCarry).setIe enable).setPc (wrapPc s.config (v + 1))) := by
  unfold returnFromInterrupt State.pop
  cases hs : s.stack <;> simp [eq_comm]

/-! ### The access family -/

/-- What an INPUT does: it always answers. -/
theorem inputInto_eq (x : Reg) (o : Operand) (s : State) :
    inputInto x o s = .next
      ((((s.logEvent (.input (operandValue s o) (s.portDatum (operandValue s o)))).setEnv
        { s.env with data := s.env.data.tail }).writeReg x (s.portDatum (operandValue s o))).advance
          (operandLength o)) := rfl

/-- What a FETCH can do when it answers. -/
theorem fetchInto_eq_next {x : Reg} {o : Operand} {s t : State} :
    fetchInto x o s = .next t ↔
      ∃ v, (operandValue s o).toNat < 2 ^ s.config.scratchAddrBits ∧ s.cell (operandValue s o).toNat = some v ∧
        t = (s.writeReg x v).advance (operandLength o) := by
  unfold fetchInto
  cases h : s.ramRead (operandValue s o) with
  | error f =>
    simp only [reduceCtorEq, false_iff, not_exists]
    rintro v ⟨h1, h2, -⟩
    rw [State.ramRead_eq_ok.2 ⟨h1, h2⟩] at h
    exact absurd h (by simp)
  | ok v =>
    obtain ⟨h1, h2⟩ := State.ramRead_eq_ok.1 h
    simp only [Host.Outcome.next.injEq]
    constructor
    · rintro rfl; exact ⟨v, h1, h2, rfl⟩
    · rintro ⟨w, -, h3, rfl⟩
      rw [h2, Option.some.injEq] at h3; rw [h3]

/-- What a STORE can do when it answers. -/
theorem storeFrom_eq_next {x : Reg} {o : Operand} {s t : State} :
    storeFrom x o s = .next t ↔
      (operandValue s o).toNat < 2 ^ s.config.scratchAddrBits ∧
        t = (s.setRam (Memory.write .scratchpad s.ram (operandValue s o).toNat (s.reg x))).advance
          (operandLength o) := by
  unfold storeFrom State.ramWrite ramAddr
  by_cases h : (operandValue s o).toNat < 2 ^ s.config.scratchAddrBits <;> simp [h, eq_comm]

end Sys2Proof.Machine
end

