-- ==== Sys2Proof/Laws/PerInstr.lean ====
section
/-! SUPPORT. Families of statements about instructions as syntax, one lemma per constructor. -/

namespace Sys2Proof.Laws

/-! ### EncodedLength: bit 15 of Word 1 says how many words the instruction has (`30_encoding.md` R80) -/

/-- The encoding has a first word, and its length is 2 exactly when bit 15 of that word is 1, else 1. -/
def EncodedLength.Statement (i : Instr) : Prop :=
  ∃ w1 rest, encode i = w1 :: rest ∧ (encode i).length = if hasSecond w1 then 2 else 1

theorem EncodedLength.nop : EncodedLength.Statement .nop :=
  ⟨_, _, rfl, by rw [hasSecond_word1]; rfl⟩

theorem EncodedLength.addImm (x : Reg) (w : Word) : EncodedLength.Statement (.addImm x w) :=
  ⟨_, _, rfl, by rw [hasSecond_word1]; rfl⟩

theorem EncodedLength.addReg (x y : Reg) : EncodedLength.Statement (.addReg x y) :=
  ⟨_, _, rfl, by rw [hasSecond_word1]; rfl⟩

theorem EncodedLength.addcyImm (x : Reg) (w : Word) : EncodedLength.Statement (.addcyImm x w) :=
  ⟨_, _, rfl, by rw [hasSecond_word1]; rfl⟩

theorem EncodedLength.addcyReg (x y : Reg) : EncodedLength.Statement (.addcyReg x y) :=
  ⟨_, _, rfl, by rw [hasSecond_word1]; rfl⟩

theorem EncodedLength.andImm (x : Reg) (w : Word) : EncodedLength.Statement (.andImm x w) :=
  ⟨_, _, rfl, by rw [hasSecond_word1]; rfl⟩

theorem EncodedLength.andReg (x y : Reg) : EncodedLength.Statement (.andReg x y) :=
  ⟨_, _, rfl, by rw [hasSecond_word1]; rfl⟩

theorem EncodedLength.call (a : Word) : EncodedLength.Statement (.call a) :=
  ⟨_, _, rfl, by rw [hasSecond_word1]; rfl⟩

theorem EncodedLength.callC (a : Word) : EncodedLength.Statement (.callC a) :=
  ⟨_, _, rfl, by rw [hasSecond_word1]; rfl⟩

theorem EncodedLength.callNC (a : Word) : EncodedLength.Statement (.callNC a) :=
  ⟨_, _, rfl, by rw [hasSecond_word1]; rfl⟩

theorem EncodedLength.callZ (a : Word) : EncodedLength.Statement (.callZ a) :=
  ⟨_, _, rfl, by rw [hasSecond_word1]; rfl⟩

theorem EncodedLength.callNZ (a : Word) : EncodedLength.Statement (.callNZ a) :=
  ⟨_, _, rfl, by rw [hasSecond_word1]; rfl⟩

theorem EncodedLength.compImm (x : Reg) (w : Word) : EncodedLength.Statement (.compImm x w) :=
  ⟨_, _, rfl, by rw [hasSecond_word1]; rfl⟩

theorem EncodedLength.compReg (x y : Reg) : EncodedLength.Statement (.compReg x y) :=
  ⟨_, _, rfl, by rw [hasSecond_word1]; rfl⟩

theorem EncodedLength.disint : EncodedLength.Statement .disint :=
  ⟨_, _, rfl, by rw [hasSecond_word1]; rfl⟩

theorem EncodedLength.enint : EncodedLength.Statement .enint :=
  ⟨_, _, rfl, by rw [hasSecond_word1]; rfl⟩

theorem EncodedLength.inputInd (x y : Reg) : EncodedLength.Statement (.inputInd x y) :=
  ⟨_, _, rfl, by rw [hasSecond_word1]; rfl⟩

theorem EncodedLength.inputDir (x : Reg) (w : Word) : EncodedLength.Statement (.inputDir x w) :=
  ⟨_, _, rfl, by rw [hasSecond_word1]; rfl⟩

theorem EncodedLength.jump (a : Word) : EncodedLength.Statement (.jump a) :=
  ⟨_, _, rfl, by rw [hasSecond_word1]; rfl⟩

theorem EncodedLength.jumpC (a : Word) : EncodedLength.Statement (.jumpC a) :=
  ⟨_, _, rfl, by rw [hasSecond_word1]; rfl⟩

theorem EncodedLength.jumpNC (a : Word) : EncodedLength.Statement (.jumpNC a) :=
  ⟨_, _, rfl, by rw [hasSecond_word1]; rfl⟩

theorem EncodedLength.jumpZ (a : Word) : EncodedLength.Statement (.jumpZ a) :=
  ⟨_, _, rfl, by rw [hasSecond_word1]; rfl⟩

theorem EncodedLength.jumpNZ (a : Word) : EncodedLength.Statement (.jumpNZ a) :=
  ⟨_, _, rfl, by rw [hasSecond_word1]; rfl⟩

theorem EncodedLength.loadImm (x : Reg) (w : Word) : EncodedLength.Statement (.loadImm x w) :=
  ⟨_, _, rfl, by rw [hasSecond_word1]; rfl⟩

theorem EncodedLength.loadReg (x y : Reg) : EncodedLength.Statement (.loadReg x y) :=
  ⟨_, _, rfl, by rw [hasSecond_word1]; rfl⟩

theorem EncodedLength.orImm (x : Reg) (w : Word) : EncodedLength.Statement (.orImm x w) :=
  ⟨_, _, rfl, by rw [hasSecond_word1]; rfl⟩

theorem EncodedLength.orReg (x y : Reg) : EncodedLength.Statement (.orReg x y) :=
  ⟨_, _, rfl, by rw [hasSecond_word1]; rfl⟩

theorem EncodedLength.outputInd (x y : Reg) : EncodedLength.Statement (.outputInd x y) :=
  ⟨_, _, rfl, by rw [hasSecond_word1]; rfl⟩

theorem EncodedLength.outputDir (x : Reg) (w : Word) : EncodedLength.Statement (.outputDir x w) :=
  ⟨_, _, rfl, by rw [hasSecond_word1]; rfl⟩

theorem EncodedLength.returnAlways : EncodedLength.Statement .returnAlways :=
  ⟨_, _, rfl, by rw [hasSecond_word1]; rfl⟩

theorem EncodedLength.returnC : EncodedLength.Statement .returnC :=
  ⟨_, _, rfl, by rw [hasSecond_word1]; rfl⟩

theorem EncodedLength.returnNC : EncodedLength.Statement .returnNC :=
  ⟨_, _, rfl, by rw [hasSecond_word1]; rfl⟩

theorem EncodedLength.returnZ : EncodedLength.Statement .returnZ :=
  ⟨_, _, rfl, by rw [hasSecond_word1]; rfl⟩

theorem EncodedLength.returnNZ : EncodedLength.Statement .returnNZ :=
  ⟨_, _, rfl, by rw [hasSecond_word1]; rfl⟩

theorem EncodedLength.retdis : EncodedLength.Statement .retdis :=
  ⟨_, _, rfl, by rw [hasSecond_word1]; rfl⟩

theorem EncodedLength.reten : EncodedLength.Statement .reten :=
  ⟨_, _, rfl, by rw [hasSecond_word1]; rfl⟩

theorem EncodedLength.rl (x : Reg) : EncodedLength.Statement (.rl x) :=
  ⟨_, _, rfl, by rw [hasSecond_word1]; rfl⟩

theorem EncodedLength.rr (x : Reg) : EncodedLength.Statement (.rr x) :=
  ⟨_, _, rfl, by rw [hasSecond_word1]; rfl⟩

theorem EncodedLength.sl0 (x : Reg) : EncodedLength.Statement (.sl0 x) :=
  ⟨_, _, rfl, by rw [hasSecond_word1]; rfl⟩

theorem EncodedLength.sl1 (x : Reg) : EncodedLength.Statement (.sl1 x) :=
  ⟨_, _, rfl, by rw [hasSecond_word1]; rfl⟩

theorem EncodedLength.sla (x : Reg) : EncodedLength.Statement (.sla x) :=
  ⟨_, _, rfl, by rw [hasSecond_word1]; rfl⟩

theorem EncodedLength.slx (x : Reg) : EncodedLength.Statement (.slx x) :=
  ⟨_, _, rfl, by rw [hasSecond_word1]; rfl⟩

theorem EncodedLength.sr0 (x : Reg) : EncodedLength.Statement (.sr0 x) :=
  ⟨_, _, rfl, by rw [hasSecond_word1]; rfl⟩

theorem EncodedLength.sr1 (x : Reg) : EncodedLength.Statement (.sr1 x) :=
  ⟨_, _, rfl, by rw [hasSecond_word1]; rfl⟩

theorem EncodedLength.sra (x : Reg) : EncodedLength.Statement (.sra x) :=
  ⟨_, _, rfl, by rw [hasSecond_word1]; rfl⟩

theorem EncodedLength.srx (x : Reg) : EncodedLength.Statement (.srx x) :=
  ⟨_, _, rfl, by rw [hasSecond_word1]; rfl⟩

theorem EncodedLength.subImm (x : Reg) (w : Word) : EncodedLength.Statement (.subImm x w) :=
  ⟨_, _, rfl, by rw [hasSecond_word1]; rfl⟩

theorem EncodedLength.subReg (x y : Reg) : EncodedLength.Statement (.subReg x y) :=
  ⟨_, _, rfl, by rw [hasSecond_word1]; rfl⟩

theorem EncodedLength.subcImm (x : Reg) (w : Word) : EncodedLength.Statement (.subcImm x w) :=
  ⟨_, _, rfl, by rw [hasSecond_word1]; rfl⟩

theorem EncodedLength.subcReg (x y : Reg) : EncodedLength.Statement (.subcReg x y) :=
  ⟨_, _, rfl, by rw [hasSecond_word1]; rfl⟩

theorem EncodedLength.testImm (x : Reg) (w : Word) : EncodedLength.Statement (.testImm x w) :=
  ⟨_, _, rfl, by rw [hasSecond_word1]; rfl⟩

theorem EncodedLength.testReg (x y : Reg) : EncodedLength.Statement (.testReg x y) :=
  ⟨_, _, rfl, by rw [hasSecond_word1]; rfl⟩

theorem EncodedLength.xorImm (x : Reg) (w : Word) : EncodedLength.Statement (.xorImm x w) :=
  ⟨_, _, rfl, by rw [hasSecond_word1]; rfl⟩

theorem EncodedLength.xorReg (x y : Reg) : EncodedLength.Statement (.xorReg x y) :=
  ⟨_, _, rfl, by rw [hasSecond_word1]; rfl⟩

theorem EncodedLength.fetchDir (x : Reg) (w : Word) : EncodedLength.Statement (.fetchDir x w) :=
  ⟨_, _, rfl, by rw [hasSecond_word1]; rfl⟩

theorem EncodedLength.fetchInd (x y : Reg) : EncodedLength.Statement (.fetchInd x y) :=
  ⟨_, _, rfl, by rw [hasSecond_word1]; rfl⟩

theorem EncodedLength.storeDir (x : Reg) (w : Word) : EncodedLength.Statement (.storeDir x w) :=
  ⟨_, _, rfl, by rw [hasSecond_word1]; rfl⟩

theorem EncodedLength.storeInd (x y : Reg) : EncodedLength.Statement (.storeInd x y) :=
  ⟨_, _, rfl, by rw [hasSecond_word1]; rfl⟩

end Sys2Proof.Laws
end

