-- ==== Sys2Proof/Laws/Step.lean ====
section
/-! SUPPORT. What a step can do, said once. -/

namespace Sys2Proof.Machine

/-! ### The sample of irq -/

@[simp] theorem State.tick_config (s : State) : s.tick.config = s.config := rfl
@[simp] theorem State.tick_regs (s : State) : s.tick.regs = s.regs := rfl
@[simp] theorem State.tick_reg (s : State) (r : Reg) : s.tick.reg r = s.reg r := rfl
@[simp] theorem State.tick_pc (s : State) : s.tick.pc = s.pc := rfl
@[simp] theorem State.tick_pcPlus (s : State) (n : Nat) : s.tick.pcPlus n = s.pcPlus n := rfl
@[simp] theorem State.tick_zero (s : State) : s.tick.zero = s.zero := rfl
@[simp] theorem State.tick_carry (s : State) : s.tick.carry = s.carry := rfl
@[simp] theorem State.tick_ie (s : State) : s.tick.ie = s.ie := rfl
@[simp] theorem State.tick_stack (s : State) : s.tick.stack = s.stack := rfl
@[simp] theorem State.tick_sp (s : State) : s.tick.sp = s.sp := rfl
@[simp] theorem State.tick_savedZero (s : State) : s.tick.savedZero = s.savedZero := rfl
@[simp] theorem State.tick_savedCarry (s : State) : s.tick.savedCarry = s.savedCarry := rfl
@[simp] theorem State.tick_ram (s : State) : s.tick.ram = s.ram := rfl
@[simp] theorem State.tick_cell (s : State) (a : Nat) : s.tick.cell a = s.cell a := rfl
@[simp] theorem State.tick_prog (s : State) : s.tick.prog = s.prog := rfl
@[simp] theorem State.tick_progWord (s : State) (a : Nat) : s.tick.progWord a = s.progWord a := rfl
@[simp] theorem State.tick_portLog (s : State) : s.tick.portLog = s.portLog := rfl
@[simp] theorem State.tick_env (s : State) :
    s.tick.env = { s.env with irqs := s.env.irqs.tail, steps := s.env.steps + 1 } := rfl

/-! ### Program memory -/

@[simp] theorem State.writeReg_progWord (s : State) (r : Reg) (v : Word) (a : Nat) :
    (s.writeReg r v).progWord a = s.progWord a := rfl
@[simp] theorem State.setFlags_progWord (s : State) (z c : Bool) (a : Nat) :
    (s.setFlags z c).progWord a = s.progWord a := rfl
@[simp] theorem State.setPc_progWord (s : State) (t : Word) (a : Nat) : (s.setPc t).progWord a = s.progWord a := rfl
@[simp] theorem State.setIe_progWord (s : State) (b : Bool) (a : Nat) : (s.setIe b).progWord a = s.progWord a := rfl
@[simp] theorem State.setStack_progWord (s : State) (k : List Word) (a : Nat) :
    (s.setStack k).progWord a = s.progWord a := rfl
@[simp] theorem State.setSaved_progWord (s : State) (z c : Bool) (a : Nat) :
    (s.setSaved z c).progWord a = s.progWord a := rfl
@[simp] theorem State.setRam_progWord (s : State) (m : Memory) (a : Nat) : (s.setRam m).progWord a = s.progWord a := rfl
@[simp] theorem State.logEvent_progWord (s : State) (e : PortEvent) (a : Nat) :
    (s.logEvent e).progWord a = s.progWord a := rfl
@[simp] theorem State.setEnv_progWord (s : State) (e : Env) (a : Nat) : (s.setEnv e).progWord a = s.progWord a := rfl
@[simp] theorem State.advance_progWord (s : State) (n a : Nat) : (s.advance n).progWord a = s.progWord a := rfl
@[simp] theorem State.setResult_progWord (s : State) (x : Reg) (r : AluResult) (a : Nat) :
    (s.setResult x r).progWord a = s.progWord a := rfl
@[simp] theorem State.setResultFlags_progWord (s : State) (r : AluResult) (a : Nat) :
    (s.setResultFlags r).progWord a = s.progWord a := rfl

/-- A word of program memory after a word is placed. -/
@[simp] theorem State.placeWord_progWord (s : State) (n : Nat) (v : Word) (a : Nat) :
    (s.placeWord n v).progWord a = if a = n then v else s.progWord a := by
  show (Memory.read .program (Memory.write .program s.prog n v) a).getD 0 = _
  rw [Memory.read_write]
  split_ifs <;> rfl

/-! ### The fetch -/

/-- A program word is read exactly below PROG_SIZE. -/
theorem State.progRead_eq_ok {s : State} {a w : Word} :
    s.progRead a = .ok w ↔ a.toNat < s.config.progSize ∧ w = s.progWord a.toNat := by
  unfold State.progRead
  split_ifs with h <;> simp [h, eq_comm]

/-- A program read faults exactly at or beyond PROG_SIZE. -/
theorem State.progRead_eq_error {s : State} {a : Word} {f : Fault} :
    s.progRead a = .error f ↔ s.config.progSize ≤ a.toNat ∧ f = .fetchOutOfRange := by
  unfold State.progRead
  split_ifs with h
  · simp [h]
  · simp [Nat.not_lt.1 h, eq_comm]

/-- Word 2 is read exactly when Word 1 is not at the last address of program memory or beyond it. -/
theorem State.readSecond_eq_ok {s : State} {w : Word} :
    s.readSecond = .ok w ↔ s.pc.toNat + 1 < s.config.progSize ∧ w = s.progWord (s.pcPlus 1).toNat := by
  unfold State.readSecond
  split_ifs with h <;> simp [h, eq_comm]

/-- The fetch of Word 2 faults exactly when Word 1 is at the last address of program memory or beyond it. -/
theorem State.readSecond_eq_error {s : State} {f : Fault} :
    s.readSecond = .error f ↔ s.config.progSize ≤ s.pc.toNat + 1 ∧ f = .fetchOutOfRange := by
  unfold State.readSecond
  split_ifs with h
  · simp [h]
  · simp [Nat.not_lt.1 h, eq_comm]

/-- Under right parameters the address of a Word 2 that is there does not wrap: it is `pc + 1` (`20_memory.md` R51). -/
theorem State.pcPlus_one_toNat {s : State} (hw : s.config.pcWidth ≤ 16) (hp : s.config.progSize ≤ 2 ^ s.config.pcWidth)
    (h : s.pc.toNat + 1 < s.config.progSize) : (s.pcPlus 1).toNat = s.pc.toNat + 1 := by
  have h2 : 2 ^ s.config.pcWidth ≤ 2 ^ 16 := Nat.pow_le_pow_right (by norm_num) hw
  rw [State.pcPlus, wrapPc_toNat _ _ hw, BitVec.toNat_add, BitVec.toNat_ofNat]
  rw [Nat.mod_eq_of_lt (a := s.pc.toNat + 1 % 2 ^ 16) (by omega), Nat.mod_eq_of_lt (by omega)]

/-- Fetch and decode do not look at the environment. -/
@[simp] theorem State.setEnv_fetchInstr (s : State) (e : Env) : (s.setEnv e).fetchInstr = s.fetchInstr := rfl

/-- Sampling `irq` does not change what is fetched. -/
@[simp] theorem State.tick_fetchInstr (s : State) : s.tick.fetchInstr = s.fetchInstr := rfl

/-- What is fetched is well formed. -/
theorem State.fetchInstr_wellFormed {s : State} {i : Instr} (h : s.fetchInstr = .ok i) : i.wellFormed s.config = true := by
  unfold State.fetchInstr at h
  split at h
  · exact absurd h (by simp)
  · split at h
    · exact absurd h (by simp)
    · next hd =>
      rw [← Except.ok.inj h]
      exact decode_wellFormed hd

/-! ### The step -/

/-- A step with IE and `irq` both 1 is an interrupt entry. -/
theorem step_of_interrupt {s : State} (h : s.interruptTaken = true) : step s = enterInterrupt s.tick := by
  simp only [step, h, if_true]

/-- A step with IE or `irq` 0 executes the instruction fetched. -/
theorem step_of_fetch {s : State} {i : Instr} (h : s.interruptTaken = false) (hf : s.fetchInstr = .ok i) :
    step s = exec i s.tick := by
  simp [step, h, hf]

/-- A step with IE or `irq` 0 stops with the fault of the fetch. -/
theorem step_of_fetch_error {s : State} {f : Fault} (h : s.interruptTaken = false) (hf : s.fetchInstr = .error f) :
    step s = .fault f := by
  simp [step, h, hf]

/-- Everything a step that answers can be: an interrupt entry, or the instruction fetched. -/
theorem step_cases {s t : State} (h : step s = .next t) :
    (s.interruptTaken = true ∧ enterInterrupt s.tick = .next t) ∨
      (s.interruptTaken = false ∧ ∃ i, s.fetchInstr = .ok i ∧ exec i s.tick = .next t) := by
  cases hi : s.interruptTaken with
  | true => exact .inl ⟨rfl, step_of_interrupt hi ▸ h⟩
  | false =>
    cases hf : s.fetchInstr with
    | error f => rw [step_of_fetch_error hi hf] at h; exact absurd h (by simp)
    | ok i => exact .inr ⟨rfl, i, rfl, step_of_fetch hi hf ▸ h⟩

end Sys2Proof.Machine
end

