-- ==== Sys2Proof/Machine/Asm.lean ====
section
/-! DEFINITION. The assembler spelling of an instruction (`30_encoding.md` R90, R91; D7, D29).

It carries no meaning of the machine: it says how the table writes an instruction. -/

namespace Sys2Proof.Machine

/-- One hexadecimal digit, capital. -/
def hexDigit (n : Nat) : String :=
  match n with
  | 10 => "A" | 11 => "B" | 12 => "C" | 13 => "D" | 14 => "E" | 15 => "F"
  | k => toString k

/-- A register's spelling, r0 to rF (`10_state.md` R20, D7). -/
def regText (r : Reg) : String := "r" ++ hexDigit r.val

/-- The four hexadecimal digits of a word. -/
def digitsText (w : Word) : String :=
  hexDigit (w.toNat / 4096) ++ hexDigit (w.toNat / 256 % 16) ++ hexDigit (w.toNat / 16 % 16) ++ hexDigit (w.toNat % 16)

/-- A numeral in hexadecimal with 0x, four digits (`30_encoding.md` R90). -/
def wordText (w : Word) : String := "0x" ++ digitsText w

/-- Mnemonic, first operand, comma and space, second operand (`30_encoding.md` R90). -/
def asmTwo (m a b : String) : String := m ++ " " ++ a ++ ", " ++ b

/-- A register used as a port number or a scratchpad address (`30_encoding.md` R90). -/
def indirectText (y : Reg) : String := "(" ++ regText y ++ ")"

/-- An instruction as the Instruction column writes it (`30_encoding.md` R90). -/
def asmText : Instr → String
  | .nop => "NOP"
  | .addImm x w => asmTwo "ADD" (regText x) (wordText w)
  | .addReg x y => asmTwo "ADD" (regText x) (regText y)
  | .addcyImm x w => asmTwo "ADDCY" (regText x) (wordText w)
  | .addcyReg x y => asmTwo "ADDCY" (regText x) (regText y)
  | .andImm x w => asmTwo "AND" (regText x) (wordText w)
  | .andReg x y => asmTwo "AND" (regText x) (regText y)
  | .call aaa => "CALL " ++ wordText aaa
  | .callC aaa => "CALLC " ++ wordText aaa
  | .callNC aaa => "CALLNC " ++ wordText aaa
  | .callZ aaa => "CALLZ " ++ wordText aaa
  | .callNZ aaa => "CALLNZ " ++ wordText aaa
  | .compImm x w => asmTwo "COMP" (regText x) (wordText w)
  | .compReg x y => asmTwo "COMP" (regText x) (regText y)
  | .disint => "DISINT"
  | .enint => "ENINT"
  | .inputInd x y => asmTwo "INPUT" (regText x) (indirectText y)
  | .inputDir x w => asmTwo "INPUT" (regText x) (wordText w)
  | .jump aaa => "JUMP " ++ wordText aaa
  | .jumpC aaa => "JUMPC " ++ wordText aaa
  | .jumpNC aaa => "JUMPNC " ++ wordText aaa
  | .jumpZ aaa => "JUMPZ " ++ wordText aaa
  | .jumpNZ aaa => "JUMPNZ " ++ wordText aaa
  | .loadImm x w => asmTwo "LOAD" (regText x) (wordText w)
  | .loadReg x y => asmTwo "LOAD" (regText x) (regText y)
  | .orImm x w => asmTwo "OR" (regText x) (wordText w)
  | .orReg x y => asmTwo "OR" (regText x) (regText y)
  | .outputInd x y => asmTwo "OUTPUT" (regText x) (indirectText y)
  | .outputDir x w => asmTwo "OUTPUT" (regText x) (wordText w)
  | .returnAlways => "RETURN"
  | .returnC => "RETURNC"
  | .returnNC => "RETURNNC"
  | .returnZ => "RETURNZ"
  | .returnNZ => "RETURNNZ"
  | .retdis => "RETDIS"
  | .reten => "RETEN"
  | .rl x => "RL " ++ regText x
  | .rr x => "RR " ++ regText x
  | .sl0 x => "SL0 " ++ regText x
  | .sl1 x => "SL1 " ++ regText x
  | .sla x => "SLA " ++ regText x
  | .slx x => "SLX " ++ regText x
  | .sr0 x => "SR0 " ++ regText x
  | .sr1 x => "SR1 " ++ regText x
  | .sra x => "SRA " ++ regText x
  | .srx x => "SRX " ++ regText x
  | .subImm x w => asmTwo "SUB" (regText x) (wordText w)
  | .subReg x y => asmTwo "SUB" (regText x) (regText y)
  | .subcImm x w => asmTwo "SUBC" (regText x) (wordText w)
  | .subcReg x y => asmTwo "SUBC" (regText x) (regText y)
  | .testImm x w => asmTwo "TEST" (regText x) (wordText w)
  | .testReg x y => asmTwo "TEST" (regText x) (regText y)
  | .xorImm x w => asmTwo "XOR" (regText x) (wordText w)
  | .xorReg x y => asmTwo "XOR" (regText x) (regText y)
  | .fetchDir x w => asmTwo "FETCH" (regText x) (wordText w)
  | .fetchInd x y => asmTwo "FETCH" (regText x) (indirectText y)
  | .storeDir x w => asmTwo "STORE" (regText x) (wordText w)
  | .storeInd x y => asmTwo "STORE" (regText x) (indirectText y)

/-- A line of a listing: the word address, a colon and the instruction (`30_encoding.md` R90). -/
def listingText (a : Word) (i : Instr) : String := digitsText a ++ ": " ++ asmText i

/-- The mnemonic an alias stands for: SLO, SRO and SUBCY; any other spelling stands for itself (`30_encoding.md` R91). -/
def canonicalMnemonic (m : String) : String :=
  if m = "SLO" then "SL0" else if m = "SRO" then "SR0" else if m = "SUBCY" then "SUBC" else m

end Sys2Proof.Machine
end

