-- ==== Sys2Proof/Tests/Slice0.lean ====
section
/-! SUPPORT. The model's own tests.

Expected values are the spec's: the vectors of `95_test_vectors.md` (its section 2, an id each) and the encodings of
`30_encoding.md` R85. The last part shows, for each obligation with hypotheses, states and operands that meet them. -/

namespace Sys2Proof.Tests

open Sys2Proof.Machine

/-- Reset, with `irq` 0 at the first step. -/
def base : State := State.resetWith Config.default PowerUp.blank ⟨[false], [], 0⟩

/-- `base` at an address, with ZERO and CARRY as given. -/
def flagsAt (pc : Word) (z c : Bool) : State := (base.setFlags z c).setPc pc

/-- The state under other parameters. -/
def under (f : Config → Config) (s : State) : State := { s with config := f s.config }

/-- The step of a state with words placed at its `pc`. -/
def stepOn (ws : List Word) (s : State) : Result := step (s.placeWords s.pc.toNat ws)

/-- The step answers a next state of which `p` holds. -/
abbrev Gives (ws : List Word) (s : State) (p : State → Bool) : Prop :=
  (match stepOn ws s with
    | .next t => p t
    | _ => false) = true

/-- The step stops with the fault. -/
abbrev Stops (ws : List Word) (s : State) (f : Fault) : Prop :=
  (match stepOn ws s with
    | .fault g => g == f
    | _ => false) = true

/-- The words decode to the instruction, and its encoding is those words. -/
abbrev ReadsAs (ws : List Word) (i : Instr) : Prop :=
  (match decode Config.default ws with
    | .ok (j, []) => j == i && encode i == ws
    | _ => false) = true

/-- Word 1 fits no row. -/
abbrev IsIllegal (w1 : Word) : Prop := decodePair Config.default w1 0 = .error .illegalInstruction

/-! ### Well-formed instructions: the one check, at PC_WIDTH 12 -/

/-- PC_WIDTH 12. -/
def narrow : Config := { Config.default with pcWidth := 12, progSize := 4096 }

theorem test_wellFormed_refuses_wide_targets :
    Instr.wellFormed narrow (.jump 0x1000) = false ∧ Instr.wellFormed narrow (.callNZ 0x8000) = false ∧
    Instr.wellFormed narrow (.jump 0x0FFF) = true ∧ Instr.wellFormed narrow (.loadImm 0 0x1000) = true := by decide

/-! ### Decoding: every constructor's words, bit by bit (R85; vectors VE1 to VE58, X = A, Y = B) -/

theorem test_decode_arith :
    ReadsAs [0b1000001000001010, 0x1234] (.addImm 10 0x1234) ∧
    ReadsAs [0b0000010010111010] (.addReg 10 11) ∧
    ReadsAs [0b1000011000001010, 0x1234] (.addcyImm 10 0x1234) ∧
    ReadsAs [0b0000100010111010] (.addcyReg 10 11) ∧
    ReadsAs [0b1001100000001010, 0x1234] (.compImm 10 0x1234) ∧
    ReadsAs [0b0001101010111010] (.compReg 10 11) ∧
    ReadsAs [0b1101110000001010, 0x1234] (.subImm 10 0x1234) ∧
    ReadsAs [0b0101111010111010] (.subReg 10 11) ∧
    ReadsAs [0b1110000000001010, 0x1234] (.subcImm 10 0x1234) ∧
    ReadsAs [0b0110001010111010] (.subcReg 10 11) := by decide

theorem test_decode_logic :
    ReadsAs [0b1010111000001010, 0x1234] (.loadImm 10 0x1234) ∧
    ReadsAs [0b0011000010111010] (.loadReg 10 11) ∧
    ReadsAs [0b1000101000001010, 0x1234] (.andImm 10 0x1234) ∧
    ReadsAs [0b0000110010111010] (.andReg 10 11) ∧
    ReadsAs [0b1011001000001010, 0x1234] (.orImm 10 0x1234) ∧
    ReadsAs [0b0011010010111010] (.orReg 10 11) ∧
    ReadsAs [0b1110100000001010, 0x1234] (.xorImm 10 0x1234) ∧
    ReadsAs [0b0110101010111010] (.xorReg 10 11) ∧
    ReadsAs [0b1110010000001010, 0x1234] (.testImm 10 0x1234) ∧
    ReadsAs [0b0110011010111010] (.testReg 10 11) := by decide

theorem test_decode_shift :
    ReadsAs [0b0100100000001010] (.rl 10) ∧
    ReadsAs [0b0100101000001010] (.rr 10) ∧
    ReadsAs [0b0100110000001010] (.sl0 10) ∧
    ReadsAs [0b0100111000001010] (.sl1 10) ∧
    ReadsAs [0b0101000000001010] (.sla 10) ∧
    ReadsAs [0b0101001000001010] (.slx 10) ∧
    ReadsAs [0b0101010000001010] (.sr0 10) ∧
    ReadsAs [0b0101011000001010] (.sr1 10) ∧
    ReadsAs [0b0101100000001010] (.sra 10) ∧
    ReadsAs [0b0101101000001010] (.srx 10) := by decide

theorem test_decode_jump :
    ReadsAs [0b1010010000000000, 0x1234] (.jump 0x1234) ∧
    ReadsAs [0b1010011000000000, 0x1234] (.jumpC 0x1234) ∧
    ReadsAs [0b1010100000000000, 0x1234] (.jumpNC 0x1234) ∧
    ReadsAs [0b1010101000000000, 0x1234] (.jumpZ 0x1234) ∧
    ReadsAs [0b1010110000000000, 0x1234] (.jumpNZ 0x1234) := by decide

theorem test_decode_call :
    ReadsAs [0b1000111000000000, 0x1234] (.call 0x1234) ∧
    ReadsAs [0b1001000000000000, 0x1234] (.callC 0x1234) ∧
    ReadsAs [0b1001001000000000, 0x1234] (.callNC 0x1234) ∧
    ReadsAs [0b1001010000000000, 0x1234] (.callZ 0x1234) ∧
    ReadsAs [0b1001011000000000, 0x1234] (.callNZ 0x1234) := by decide

theorem test_decode_return :
    ReadsAs [0b0011101000000000] .returnAlways ∧
    ReadsAs [0b0011110000000000] .returnC ∧
    ReadsAs [0b0011111000000000] .returnNC ∧
    ReadsAs [0b0100000000000000] .returnZ ∧
    ReadsAs [0b0100001000000000] .returnNZ := by decide

theorem test_decode_access :
    ReadsAs [0b0010000010111010] (.inputInd 10 11) ∧
    ReadsAs [0b1010001000001010, 0x1234] (.inputDir 10 0x1234) ∧
    ReadsAs [0b0011011010111010] (.outputInd 10 11) ∧
    ReadsAs [0b1011100000001010, 0x1234] (.outputDir 10 0x1234) ∧
    ReadsAs [0b1111000000001010, 0x1234] (.fetchDir 10 0x1234) ∧
    ReadsAs [0b0111001010111010] (.fetchInd 10 11) ∧
    ReadsAs [0b1111010000001010, 0x1234] (.storeDir 10 0x1234) ∧
    ReadsAs [0b0111011010111010] (.storeInd 10 11) := by decide

theorem test_decode_system :
    ReadsAs [0b0000000000000000] .nop ∧
    ReadsAs [0b0001110000000000] .disint ∧
    ReadsAs [0b0001111000000000] .enint ∧
    ReadsAs [0b0100010000000000] .retdis ∧
    ReadsAs [0b0100011000000000] .reten := by decide

/-- Vectors VE76, VE77. -/
theorem test_decode_last_registers :
    ReadsAs [0b0011011011111111] (.outputInd 15 15) ∧ ReadsAs [0b0000010011111111] (.addReg 15 15) := by decide

/-- Vectors VE59 to VE64: `op` values the table does not list. -/
theorem test_illegal_opcodes :
    IsIllegal 0x0100 ∧ IsIllegal 0x6C00 ∧ IsIllegal 0xEE00 ∧ IsIllegal 0x7800 ∧ IsIllegal 0xFE00 ∧
    IsIllegal 0xFFFF := by decide

/-- Vectors VE65 to VE75: the wrong "2nd" bit, and fields that are not zero. -/
theorem test_illegal_fields :
    IsIllegal 0x0200 ∧ IsIllegal 0x8400 ∧ IsIllegal 0x8000 ∧ IsIllegal 0x0001 ∧ IsIllegal 0x0010 ∧
    IsIllegal 0x8210 ∧ IsIllegal 0x8E01 ∧ IsIllegal 0x3A10 ∧ IsIllegal 0x4810 ∧ IsIllegal 0x1C01 ∧
    IsIllegal 0xF010 := by decide

theorem test_decode_missing_word :
    decode Config.default [] = .error .missingWord ∧ decode Config.default [0x8201] = .error .missingWord := by decide

/-- Word 1 in bits 15..0 and Word 2 in bits 31..16; bits above `nbits` are zero. -/
theorem test_decodeTableWord :
    decodeTableWord 32 0x1234820A = some (.addImm 10 0x1234) ∧ decodeTableWord 16 0x820A = some (.addImm 10 0) ∧
    decodeTableWord 16 0x04BA = some (.addReg 10 11) ∧ decodeTableWord 16 0x0100 = none := by decide

/-- R90, R91, and the spellings of section 2's vectors. -/
theorem test_asm :
    asmText (.addImm 1 1) = "ADD r1, 0x0001" ∧ asmText (.inputInd 1 2) = "INPUT r1, (r2)" ∧
    asmText (.outputDir 15 0xFF) = "OUTPUT rF, 0x00FF" ∧ listingText 0x000B (.jump 0x000B) = "000B: JUMP 0x000B" ∧
    canonicalMnemonic "SLO" = "SL0" ∧ canonicalMnemonic "SUBCY" = "SUBC" := by decide

/-- The first two words of program P1, as bytes in both orders (R4, R51). -/
theorem test_loadImage :
    (base.loadImage [0xAE, 0x00, 0x00, 0x05]).prog = [(0, 0xAE00), (1, 0x0005)] ∧
    ((under (fun c => { c with hostByteOrder := .little }) base).loadImage [0x00, 0xAE, 0x05, 0x00]).prog =
      [(0, 0xAE00), (1, 0x0005)] := by decide

/-- The word planted at `pc` is the one the next step executes, from reset and with IE 1 (R34, R271). -/
theorem test_withFetchWord :
    (match step (State.reset.withFetchWord 32 0x12348201) with
      | .next t => t.reg 1 == 0x1234 && t.pc == 2
      | _ => false) = true ∧
    (match step ((State.reset.setIe true).withFetchWord 16 0x1C00) with
      | .next t => !t.ie && t.pc == 1
      | _ => false) = true := by decide

/-- U16: INT_VECTOR outside the program matters only to a program that can enable interrupts. -/
theorem test_admissible :
    admissible (under (fun c => { c with progSize := 2 }) base) = true ∧
    admissible ((under (fun c => { c with progSize := 2 }) base).placeWord 0 0x1E00) = false ∧
    admissible ((under (fun c => { c with progSize := 2 }) base).placeWord 2 0x0001) = false := by decide

/-! ### Arithmetic, one step -/

/-- Vectors VA1, VA6. -/
theorem test_addImm :
    Gives [0x8201, 0x0001] (flagsAt 0x0 false false |>.writeReg 1 0xFFFF)
      (fun t => t.reg 1 == 0x0000 && t.pc == 0x0002 && t.zero && t.carry) ∧
    Gives [0x8202, 0x0000] (flagsAt 0x0 false true |>.writeReg 2 0x0000)
      (fun t => t.reg 2 == 0x0000 && t.pc == 0x0002 && t.zero && !t.carry) := by decide

/-- Vector VA4. -/
theorem test_addReg :
    Gives [0x0422] (flagsAt 0x0 false false |>.writeReg 2 0x8000)
      (fun t => t.reg 2 == 0x0000 && t.pc == 0x0001 && t.zero && t.carry) := by decide

/-- Vector VA8. -/
theorem test_addcyImm :
    Gives [0x8601, 0xFFFF] (flagsAt 0x0 false true |>.writeReg 1 0xFFFF)
      (fun t => t.reg 1 == 0xFFFF && t.pc == 0x0002 && !t.zero && t.carry) := by decide

/-- Vector VA11. -/
theorem test_addcyReg :
    Gives [0x0844] (flagsAt 0x0 false true |>.writeReg 4 0x8000)
      (fun t => t.reg 4 == 0x0001 && t.pc == 0x0001 && !t.zero && t.carry) := by decide

/-- Vector VA24. -/
theorem test_compImm :
    Gives [0x9801, 0x1235] (flagsAt 0x0 false false |>.writeReg 1 0x1234)
      (fun t => t.reg 1 == 0x1234 && t.pc == 0x0002 && !t.zero && t.carry) := by decide

/-- Vector VA26. -/
theorem test_compReg :
    Gives [0x1A21] (flagsAt 0x0 false false |>.writeReg 1 0x8000 |>.writeReg 2 0x7FFF)
      (fun t => t.reg 1 == 0x8000 && t.reg 2 == 0x7FFF && t.pc == 0x0001 && !t.zero && !t.carry) := by decide

/-- Vector VA13. -/
theorem test_subImm :
    Gives [0xDC01, 0x0001] (flagsAt 0x0 false false |>.writeReg 1 0x0000)
      (fun t => t.reg 1 == 0xFFFF && t.pc == 0x0002 && !t.zero && t.carry) := by decide

/-- Vector VA15. -/
theorem test_subReg :
    Gives [0x5E76] (flagsAt 0x0 false false |>.writeReg 6 0x8000 |>.writeReg 7 0x0001)
      (fun t => t.reg 6 == 0x7FFF && t.reg 7 == 0x0001 && t.pc == 0x0001 && !t.zero && !t.carry) := by decide

/-- Vector VA19. -/
theorem test_subcImm :
    Gives [0xE001, 0xFFFF] (flagsAt 0x0 false true |>.writeReg 1 0x0000)
      (fun t => t.reg 1 == 0x0000 && t.pc == 0x0002 && t.zero && t.carry) := by decide

/-- Vector VA22. -/
theorem test_subcReg :
    Gives [0x6288] (flagsAt 0x0 false true |>.writeReg 8 0x1234)
      (fun t => t.reg 8 == 0xFFFF && t.pc == 0x0001 && !t.zero && t.carry) := by decide

/-! ### Load and logical, one step -/

/-- Vector VL1. -/
theorem test_loadImm :
    Gives [0xAE01, 0xBEEF] (flagsAt 0x0 true true)
      (fun t => t.reg 1 == 0xBEEF && t.pc == 0x0002 && t.zero && t.carry) := by decide

/-- Vector VL3. -/
theorem test_loadReg :
    Gives [0x3021] (flagsAt 0x0 false true |>.writeReg 2 0x0000)
      (fun t => t.reg 1 == 0x0000 && t.reg 2 == 0x0000 && t.pc == 0x0001 && !t.zero && t.carry) := by decide

/-- Vector VL6. -/
theorem test_andImm :
    Gives [0x8A01, 0x00FF] (flagsAt 0x0 false true |>.writeReg 1 0xFF00)
      (fun t => t.reg 1 == 0x0000 && t.pc == 0x0002 && t.zero && !t.carry) := by decide

/-- Vector VL8. -/
theorem test_andReg :
    Gives [0x0C21] (flagsAt 0x0 false false |>.writeReg 1 0xFFFF |>.writeReg 2 0x8001)
      (fun t => t.reg 1 == 0x8001 && t.reg 2 == 0x8001 && t.pc == 0x0001 && !t.zero && !t.carry) := by decide

/-- Vector VL11. -/
theorem test_orImm :
    Gives [0xB201, 0x0000] (flagsAt 0x0 true true |>.writeReg 1 0x8000)
      (fun t => t.reg 1 == 0x8000 && t.pc == 0x0002 && !t.zero && !t.carry) := by decide

/-- Vector VL12. -/
theorem test_orReg :
    Gives [0x3421] (flagsAt 0x0 false true |>.writeReg 1 0x0000 |>.writeReg 2 0x0000)
      (fun t => t.reg 1 == 0x0000 && t.reg 2 == 0x0000 && t.pc == 0x0001 && t.zero && !t.carry) := by decide

/-- Vector VL14. -/
theorem test_xorImm :
    Gives [0xE801, 0xFFFF] (flagsAt 0x0 false true |>.writeReg 1 0x00FF)
      (fun t => t.reg 1 == 0xFF00 && t.pc == 0x0002 && !t.zero && !t.carry) := by decide

/-- Vector VL17. -/
theorem test_xorReg :
    Gives [0x6A21] (flagsAt 0x0 false false |>.writeReg 1 0xAAAA |>.writeReg 2 0x5555)
      (fun t => t.reg 1 == 0xFFFF && t.reg 2 == 0x5555 && t.pc == 0x0001 && !t.zero && !t.carry) := by decide

/-- Vectors VL18, VL20. -/
theorem test_testImm :
    Gives [0xE401, 0x0001] (flagsAt 0x0 false false |>.writeReg 1 0x0003)
      (fun t => t.reg 1 == 0x0003 && t.pc == 0x0002 && !t.zero && t.carry) ∧
    Gives [0xE401, 0xFF00] (flagsAt 0x0 false true |>.writeReg 1 0x00FF)
      (fun t => t.reg 1 == 0x00FF && t.pc == 0x0002 && t.zero && !t.carry) := by decide

/-- Vector VL22. -/
theorem test_testReg :
    Gives [0x6621] (flagsAt 0x0 false false |>.writeReg 1 0xFFFF |>.writeReg 2 0x7FFF)
      (fun t => t.reg 1 == 0xFFFF && t.reg 2 == 0x7FFF && t.pc == 0x0001 && !t.zero && t.carry) := by decide

/-! ### Shift and rotate, one step -/

/-- Vector VS2. -/
theorem test_rl :
    Gives [0x4805] (flagsAt 0x0 false true |>.writeReg 5 0x8001)
      (fun t => t.reg 5 == 0x0003 && t.pc == 0x0001 && !t.zero && t.carry) := by decide

/-- Vector VS15. -/
theorem test_rr :
    Gives [0x4A05] (flagsAt 0x0 false false |>.writeReg 5 0x0001)
      (fun t => t.reg 5 == 0x8000 && t.pc == 0x0001 && !t.zero && t.carry) := by decide

/-- Vector VS22. -/
theorem test_sl0 :
    Gives [0x4C05] (flagsAt 0x0 false false |>.writeReg 5 0x8000)
      (fun t => t.reg 5 == 0x0000 && t.pc == 0x0001 && t.zero && t.carry) := by decide

/-- Vector VS28. -/
theorem test_sl1 :
    Gives [0x4E05] (flagsAt 0x0 false true |>.writeReg 5 0x0000)
      (fun t => t.reg 5 == 0x0001 && t.pc == 0x0001 && !t.zero && !t.carry) := by decide

/-- Vector VS34. -/
theorem test_sla :
    Gives [0x5005] (flagsAt 0x0 false true |>.writeReg 5 0x8001)
      (fun t => t.reg 5 == 0x0003 && t.pc == 0x0001 && !t.zero && t.carry) := by decide

/-- Vector VS47. -/
theorem test_slx :
    Gives [0x5205] (flagsAt 0x0 false false |>.writeReg 5 0x0001)
      (fun t => t.reg 5 == 0x0003 && t.pc == 0x0001 && !t.zero && !t.carry) := by decide

/-- Vector VS55. -/
theorem test_sr0 :
    Gives [0x5405] (flagsAt 0x0 false false |>.writeReg 5 0x0001)
      (fun t => t.reg 5 == 0x0000 && t.pc == 0x0001 && t.zero && t.carry) := by decide

/-- Vector VS60. -/
theorem test_sr1 :
    Gives [0x5605] (flagsAt 0x0 false true |>.writeReg 5 0x0000)
      (fun t => t.reg 5 == 0x8000 && t.pc == 0x0001 && !t.zero && !t.carry) := by decide

/-- Vector VS66. -/
theorem test_sra :
    Gives [0x5805] (flagsAt 0x0 false true |>.writeReg 5 0x8001)
      (fun t => t.reg 5 == 0xC000 && t.pc == 0x0001 && !t.zero && t.carry) := by decide

/-- Vector VS78. -/
theorem test_srx :
    Gives [0x5A05] (flagsAt 0x0 false false |>.writeReg 5 0x8000)
      (fun t => t.reg 5 == 0xC000 && t.pc == 0x0001 && !t.zero && !t.carry) := by decide

/-! ### Control transfer, one step -/

/-- Vector VC1. -/
theorem test_jump :
    Gives [0xA400, 0x0123] (flagsAt 0x10 false false)
      (fun t => t.pc == 0x0123 && !t.zero && !t.carry) := by decide

/-- Vectors VC2, VC3. -/
theorem test_jumpC :
    Gives [0xA600, 0x0123] (flagsAt 0x10 false true)
      (fun t => t.pc == 0x0123 && !t.zero && t.carry) ∧
    Gives [0xA600, 0x0123] (flagsAt 0x10 false false)
      (fun t => t.pc == 0x0012 && !t.zero && !t.carry) := by decide

/-- Vectors VC4, VC5. -/
theorem test_jumpNC :
    Gives [0xA800, 0x0123] (flagsAt 0x10 false false)
      (fun t => t.pc == 0x0123 && !t.zero && !t.carry) ∧
    Gives [0xA800, 0x0123] (flagsAt 0x10 false true)
      (fun t => t.pc == 0x0012 && !t.zero && t.carry) := by decide

/-- Vectors VC6, VC7. -/
theorem test_jumpZ :
    Gives [0xAA00, 0x0123] (flagsAt 0x10 true false)
      (fun t => t.pc == 0x0123 && t.zero && !t.carry) ∧
    Gives [0xAA00, 0x0123] (flagsAt 0x10 false false)
      (fun t => t.pc == 0x0012 && !t.zero && !t.carry) := by decide

/-- Vectors VC8, VC9. -/
theorem test_jumpNZ :
    Gives [0xAC00, 0x0123] (flagsAt 0x10 false false)
      (fun t => t.pc == 0x0123 && !t.zero && !t.carry) ∧
    Gives [0xAC00, 0x0123] (flagsAt 0x10 true false)
      (fun t => t.pc == 0x0012 && t.zero && !t.carry) := by decide

/-- Vectors VC10, VC29. -/
theorem test_call :
    Gives [0x8E00, 0x0200] (flagsAt 0x10 false false |>.setStack [0x0005])
      (fun t => t.pc == 0x0200 && !t.zero && !t.carry && t.stack == [0x0011, 0x0005]) ∧
    Gives [0x8E00, 0x0200] (flagsAt 0xFFFE false false |>.setStack [])
      (fun t => t.pc == 0x0200 && !t.zero && !t.carry && t.stack == [0xFFFF]) := by decide

/-- Vectors VC11, VC12. -/
theorem test_callC :
    Gives [0x9000, 0x0200] (flagsAt 0x10 false true |>.setStack [0x0005])
      (fun t => t.pc == 0x0200 && !t.zero && t.carry && t.stack == [0x0011, 0x0005]) ∧
    Gives [0x9000, 0x0200] (flagsAt 0x10 false false |>.setStack [0x0005])
      (fun t => t.pc == 0x0012 && !t.zero && !t.carry && t.stack == [0x0005]) := by decide

/-- Vectors VC13, VC14. -/
theorem test_callNC :
    Gives [0x9200, 0x0200] (flagsAt 0x10 false false |>.setStack [0x0005])
      (fun t => t.pc == 0x0200 && !t.zero && !t.carry && t.stack == [0x0011, 0x0005]) ∧
    Gives [0x9200, 0x0200] (flagsAt 0x10 false true |>.setStack [0x0005])
      (fun t => t.pc == 0x0012 && !t.zero && t.carry && t.stack == [0x0005]) := by decide

/-- Vectors VC15, VC16. -/
theorem test_callZ :
    Gives [0x9400, 0x0200] (flagsAt 0x10 true false |>.setStack [0x0005])
      (fun t => t.pc == 0x0200 && t.zero && !t.carry && t.stack == [0x0011, 0x0005]) ∧
    Gives [0x9400, 0x0200] (flagsAt 0x10 false false |>.setStack [0x0005])
      (fun t => t.pc == 0x0012 && !t.zero && !t.carry && t.stack == [0x0005]) := by decide

/-- Vectors VC17, VC18. -/
theorem test_callNZ :
    Gives [0x9600, 0x0200] (flagsAt 0x10 false false |>.setStack [0x0005])
      (fun t => t.pc == 0x0200 && !t.zero && !t.carry && t.stack == [0x0011, 0x0005]) ∧
    Gives [0x9600, 0x0200] (flagsAt 0x10 true false |>.setStack [0x0005])
      (fun t => t.pc == 0x0012 && t.zero && !t.carry && t.stack == [0x0005]) := by decide

/-- Vectors VC19, VC30. -/
theorem test_returnAlways :
    Gives [0x3A00] (flagsAt 0x20 false false |>.setStack [0x0011, 0x0005])
      (fun t => t.pc == 0x0012 && !t.zero && !t.carry && t.stack == [0x0005]) ∧
    Gives [0x3A00] (flagsAt 0x20 false false |>.setStack [0xFFFF])
      (fun t => t.pc == 0x0000 && !t.zero && !t.carry && t.stack == []) := by decide

/-- Vectors VC20, VC21. -/
theorem test_returnC :
    Gives [0x3C00] (flagsAt 0x20 false true |>.setStack [0x0011, 0x0005])
      (fun t => t.pc == 0x0012 && !t.zero && t.carry && t.stack == [0x0005]) ∧
    Gives [0x3C00] (flagsAt 0x20 false false |>.setStack [0x0011, 0x0005])
      (fun t => t.pc == 0x0021 && !t.zero && !t.carry && t.stack == [0x0011, 0x0005]) := by decide

/-- Vectors VC22, VC23. -/
theorem test_returnNC :
    Gives [0x3E00] (flagsAt 0x20 false false |>.setStack [0x0011, 0x0005])
      (fun t => t.pc == 0x0012 && !t.zero && !t.carry && t.stack == [0x0005]) ∧
    Gives [0x3E00] (flagsAt 0x20 false true |>.setStack [0x0011, 0x0005])
      (fun t => t.pc == 0x0021 && !t.zero && t.carry && t.stack == [0x0011, 0x0005]) := by decide

/-- Vectors VC24, VC25. -/
theorem test_returnZ :
    Gives [0x4000] (flagsAt 0x20 true false |>.setStack [0x0011, 0x0005])
      (fun t => t.pc == 0x0012 && t.zero && !t.carry && t.stack == [0x0005]) ∧
    Gives [0x4000] (flagsAt 0x20 false false |>.setStack [0x0011, 0x0005])
      (fun t => t.pc == 0x0021 && !t.zero && !t.carry && t.stack == [0x0011, 0x0005]) := by decide

/-- Vectors VC26, VC27. -/
theorem test_returnNZ :
    Gives [0x4200] (flagsAt 0x20 false false |>.setStack [0x0011, 0x0005])
      (fun t => t.pc == 0x0012 && !t.zero && !t.carry && t.stack == [0x0005]) ∧
    Gives [0x4200] (flagsAt 0x20 true false |>.setStack [0x0011, 0x0005])
      (fun t => t.pc == 0x0021 && t.zero && !t.carry && t.stack == [0x0011, 0x0005]) := by decide

/-- Vectors VC31, VC34. -/
theorem test_stack_faults :
    Stops [0x3A00] (flagsAt 0x20 false false |>.setStack [])
      .stackUnderflow ∧
    Stops [0x8E00, 0x0200] (under (fun c => { c with stackDepth := 2 }) (flagsAt 0x10 false false
        |>.setStack [0x0002, 0x0001]))
      .stackOverflow := by decide

/-- Vectors VC37, VC38. -/
theorem test_target_range :
    Stops [0xA600, 0x1000] (under (fun c => { c with pcWidth := 12, progSize := 4096 }) (flagsAt 0x10 false false))
      .addressOutOfRange ∧
    Gives [0xA400, 0x0FFF] (under (fun c => { c with pcWidth := 12, progSize := 4096 }) (flagsAt 0x10 false false))
      (fun t => t.pc == 0x0FFF && !t.zero && !t.carry) := by decide

/-! ### Ports and scratchpad, one step -/

/-- Vector VM2. -/
theorem test_inputInd :
    Gives [0x2022] (flagsAt 0x0 false false |>.writeReg 2 0x0003 |>.setEnv ⟨[false], [0x0000], 0⟩)
      (fun t => t.reg 2 == 0x0000 && t.pc == 0x0001 && !t.zero && !t.carry && t.portLog == [.input 0x0003 0x0000]) :=
  by decide

/-- Vector VM4. -/
theorem test_inputDir :
    Gives [0xA203, 0xFFFF] (flagsAt 0x0 false true |>.setEnv ⟨[false], [0xFFFF], 0⟩)
      (fun t => t.reg 3 == 0xFFFF && t.pc == 0x0002 && !t.zero && t.carry && t.portLog == [.input 0xFFFF 0xFFFF]) :=
  by decide

/-- Vector VM5. -/
theorem test_outputInd :
    Gives [0x3621] (flagsAt 0x0 true false |>.writeReg 1 0x1234 |>.writeReg 2 0x0080)
      (fun t => t.reg 1 == 0x1234 && t.reg 2 == 0x0080 && t.pc == 0x0001 && t.zero && !t.carry &&
        t.portLog == [.output 0x0080 0x1234]) := by decide

/-- Vector VM7. -/
theorem test_outputDir :
    Gives [0xB804, 0x0001] (flagsAt 0x0 false true |>.writeReg 4 0x00FF)
      (fun t => t.reg 4 == 0x00FF && t.pc == 0x0002 && !t.zero && t.carry && t.portLog == [.output 0x0001 0x00FF]) :=
  by decide

/-- Vector VM15. -/
theorem test_fetchDir :
    Gives [0xF001, 0xFFFF] (flagsAt 0x0 false false |>.setRam [(0xFFFF, 0x0001)])
      (fun t => t.reg 1 == 0x0001 && t.pc == 0x0002 && !t.zero && !t.carry && t.cell 0xFFFF == some 0x0001) :=
  by decide

/-- Vector VM12. -/
theorem test_fetchInd :
    Gives [0x7222] (flagsAt 0x0 false false |>.writeReg 2 0x0020 |>.setRam [(0x0020, 0x0021)])
      (fun t => t.reg 2 == 0x0021 && t.pc == 0x0001 && !t.zero && !t.carry && t.cell 0x0020 == some 0x0021) :=
  by decide

/-- Vector VM19. -/
theorem test_storeDir :
    Gives [0xF401, 0x0010] (flagsAt 0x0 false false |>.writeReg 1 0x2222 |>.setRam [(0x0010, 0x1111)])
      (fun t => t.reg 1 == 0x2222 && t.pc == 0x0002 && !t.zero && !t.carry && t.cell 0x0010 == some 0x2222) :=
  by decide

/-- Vector VM18. -/
theorem test_storeInd :
    Gives [0x7622] (flagsAt 0x0 false false |>.writeReg 2 0x0033)
      (fun t => t.reg 2 == 0x0033 && t.pc == 0x0001 && !t.zero && !t.carry && t.cell 0x0033 == some 0x0033) :=
  by decide

/-- Vectors VM13, VM14, VM20. -/
theorem test_scratchpad_faults :
    Stops [0xF001, 0x0011] (flagsAt 0x0 false false |>.setRam [(0x0010, 0x000F)])
      .readOfUnwritten ∧
    Stops [0xF001, 0x0100] (under (fun c => { c with scratchAddrBits := 8 }) (flagsAt 0x0 false false
        |>.setRam [(0x0000, 0x1111)]))
      .scratchpadOutOfRange ∧
    Stops [0x7621] (under (fun c => { c with scratchAddrBits := 8 }) (flagsAt 0x0 false false
        |>.writeReg 1 0x0001 |>.writeReg 2 0x0100))
      .scratchpadOutOfRange := by decide

/-! ### System, one step -/

/-- Vector VY2. -/
theorem test_nop :
    Gives [0x0000] (flagsAt 0xFFFF false true)
      (fun t => t.pc == 0x0000 && !t.zero && t.carry) := by decide

/-- Vector VY3. -/
theorem test_disint :
    Gives [0x1C00] (flagsAt 0x0 true true |>.setIe true)
      (fun t => t.pc == 0x0001 && t.zero && t.carry && !t.ie) := by decide

/-- Vector VY5. -/
theorem test_enint :
    Gives [0x1E00] (flagsAt 0x0 true true |>.setIe false)
      (fun t => t.pc == 0x0001 && t.zero && t.carry && t.ie) := by decide

/-- Vector VY7. -/
theorem test_retdis :
    Gives [0x4400] (flagsAt 0x40 false true |>.setIe false |>.setStack [0x0004] |>.setSaved true false)
      (fun t => t.pc == 0x0005 && t.zero && !t.carry && t.stack == [] && !t.ie) := by decide

/-- Vector VY9. -/
theorem test_reten :
    Gives [0x4600] (flagsAt 0x40 false false |>.setIe false |>.setStack [0xFFFF, 0x0009] |>.setSaved true true)
      (fun t => t.pc == 0x0000 && t.zero && t.carry && t.stack == [0x0009] && t.ie) := by decide

/-! ### Interrupt entry, one step -/

/-- Vector VI2. -/
theorem test_entry_saves_and_vectors :
    Gives [0x0000] (flagsAt 0x9 false true |>.setIe true |>.setStack [0x0011] |>.setSaved true false
        |>.setEnv ⟨[true], [], 0⟩)
      (fun t => t.pc == 0x0300 && !t.zero && t.carry && t.stack == [0x0008, 0x0011] && !t.ie && !t.savedZero &&
        t.savedCarry) := by decide

/-- Vectors VI5, VI6. -/
theorem test_entry_wraps :
    Gives [0x0000] (flagsAt 0x0 false false |>.setIe true |>.setStack [] |>.setEnv ⟨[true], [], 0⟩)
      (fun t => t.pc == 0x0300 && !t.zero && !t.carry && t.stack == [0xFFFF] && !t.ie && !t.savedZero &&
        !t.savedCarry) ∧
    Gives [0x0000] (under (fun c => { c with pcWidth := 10, progSize := 1024 }) (flagsAt 0x0 false false
        |>.setIe true |>.setStack [] |>.setEnv ⟨[true], [], 0⟩))
      (fun t => t.pc == 0x0300 && !t.zero && !t.carry && t.stack == [0x03FF] && !t.ie && !t.savedZero &&
        !t.savedCarry) := by decide

/-- Vectors VI3, VI4. -/
theorem test_entry_masked :
    Gives [0x0000] (flagsAt 0x9 true true |>.setIe false |>.setStack [] |>.setEnv ⟨[true], [], 0⟩)
      (fun t => t.pc == 0x000A && t.zero && t.carry && t.stack == [] && !t.ie) ∧
    Gives [0x0000] (flagsAt 0x9 true true |>.setIe true |>.setStack [])
      (fun t => t.pc == 0x000A && t.zero && t.carry && t.stack == [] && t.ie) := by decide

/-- Vector VI7. -/
theorem test_entry_stack_full :
    Stops [0x0000] (under (fun c => { c with stackDepth := 2 }) (flagsAt 0x9 false false |>.setIe true
        |>.setStack [0x0002, 0x0001] |>.setEnv ⟨[true], [], 0⟩))
      .stackOverflow := by decide

/-! ### Witnesses: each obligation's hypotheses are met, each clause at a boundary

An obligation whose hypotheses hold of every state, or only of a number within its range, has its witness in the same
place. `small` has a program memory of 8 words, 3 address bits, a scratchpad of 4 cells and a stack of 2 entries. -/

/-- A machine of small size. -/
def small : State :=
  under (fun c => { c with pcWidth := 3, progSize := 8, stackDepth := 2, scratchAddrBits := 2, intVector := 7 }) base

/-- `small` with its stack full. -/
def smallFull : State := small.setStack [6, 5]

/-- `small` with IE 1 and `irq` 1 at the next step. -/
def smallIrq : State := (small.setIe true).setEnv ⟨[true], [], 0⟩

/-- `small` at its last cell, which holds a value: the boundary of the scratchpad. -/
def smallCell : State := (small.setRam [(3, 0x00AB)]).writeReg 2 3

/-- The entries of a listed stack, one by one: `decide` alone would try every word. -/
theorem small_entries_fit : ∀ l ∈ ([[], [6, 5]] : List (List Word)), ∀ v ∈ l, v.toNat < 2 ^ small.config.pcWidth := by
  intro l hl
  rcases List.mem_cons.1 hl with rfl | hl
  · simp
  · rw [List.mem_singleton.1 hl]
    exact List.forall_mem_cons.2 ⟨by decide, List.forall_mem_cons.2 ⟨by decide, by simp⟩⟩

theorem witness_small_Inv : small.Inv ∧ smallFull.Inv ∧ smallIrq.Inv ∧ smallCell.Inv :=
  ⟨⟨by decide, by decide, by decide, small_entries_fit [] (by simp), by decide, by decide, by decide, by decide⟩,
    ⟨by decide, by decide, by decide, small_entries_fit [6, 5] (by simp), by decide, by decide, by decide, by decide⟩,
    ⟨by decide, by decide, by decide, small_entries_fit [] (by simp), by decide, by decide, by decide, by decide⟩,
    ⟨by decide, by decide, by decide, small_entries_fit [] (by simp), by decide, by decide, by decide, by decide⟩⟩

theorem witness_CompareLeavesTheFlagsOfSubtract :
    (∃ t u, exec (.compImm 1 0) base = .next t ∧ exec (.subImm 1 0) base = .next u) ∧
    (∃ t u, exec (.compReg 1 1) base = .next t ∧ exec (.subReg 1 1) base = .next u) :=
  ⟨⟨_, _, rfl, rfl⟩, ⟨_, _, rfl, rfl⟩⟩

/-- For AddThenAddcyAddsThirtyTwoBits and SubThenSubcSubtractsThirtyTwoBits: a pair added to itself. -/
theorem witness_ThirtyTwoBits : ∃ xl xh yl yh : Reg, xl ≠ xh ∧ xl ≠ yh ∧ yl = xl ∧ yh = xh := ⟨0, 15, 0, 15, by decide⟩

theorem witness_OneFillShiftsNeverSetZero :
    (∃ t, exec (.sl1 1) base = .next t) ∧ (∃ t, exec (.sr1 1) base = .next t) := ⟨⟨_, rfl⟩, ⟨_, rfl⟩⟩

theorem witness_AddressesAreTakenModuloPcWidth :
    base.config.pcWidth = 16 ∧ small.config.pcWidth ≤ 16 ∧ (small.setPc 7).pcPlus 1 = 0 := by decide

/-- CALL forms: not taken on a full stack, and taken with room for one entry. -/
theorem witness_CallsPushTheirSecondWordsAddress :
    (small.setStack [5]).sp + 1 = small.config.stackDepth ∧ (smallFull.setFlags false false).carry = false ∧
    (∃ t, exec (.call 4) (small.setStack [5]) = .next t) ∧ (∃ t, exec (.callC 4) smallFull = .next t) ∧
    (∃ t, exec (.callNC 4) (small.setStack [5]) = .next t) ∧ (∃ t, exec (.callZ 4) smallFull = .next t) ∧
    (∃ t, exec (.callNZ 4) (small.setStack [5]) = .next t) :=
  ⟨rfl, rfl, ⟨_, rfl⟩, ⟨_, rfl⟩, ⟨_, rfl⟩, ⟨_, rfl⟩, ⟨_, rfl⟩⟩

theorem witness_TakenCallsOnAFullStackFault :
    (smallFull.setFlags true true).sp = (smallFull.setFlags true true).config.stackDepth ∧
    (smallFull.setFlags true true).carry = true ∧ (smallFull.setFlags true true).zero = true ∧
    smallFull.sp = smallFull.config.stackDepth ∧ smallFull.carry = false ∧ smallFull.zero = false := by decide

/-- RETURN forms: not taken on an empty stack, and taken with one entry. -/
theorem witness_ReturnsPopTheTopOfStack :
    (∃ t, exec .returnAlways (small.setStack [7]) = .next t ∧ t.stack = [] ∧ t.pc = 0) ∧
    (∃ t, exec .returnC small = .next t) ∧ (∃ t, exec .returnNC (small.setStack [7]) = .next t) ∧
    (∃ t, exec .returnZ small = .next t) ∧ (∃ t, exec .returnNZ (small.setStack [7]) = .next t) :=
  ⟨⟨_, rfl, rfl, rfl⟩, ⟨_, rfl⟩, ⟨_, rfl⟩, ⟨_, rfl⟩, ⟨_, rfl⟩⟩

theorem witness_TakenReturnsOnAnEmptyStackFault :
    small.sp = 0 ∧ small.carry = false ∧ small.zero = false ∧ (small.setFlags true true).sp = 0 ∧
    (small.setFlags true true).carry = true ∧ (small.setFlags true true).zero = true := by decide

theorem witness_ReturnResumesAfterTheCall :
    small.config.pcWidth ≤ 16 ∧
    ∃ t u : State, exec (.call 0) (small.setPc 6) = .next t ∧ u.stack = t.stack ∧ u.config = small.config ∧ u.pc = 4 :=
  ⟨by decide, _, small.setStack [7] |>.setPc 4, rfl, rfl, rfl, rfl⟩

theorem witness_InputsTakeTheEnvironmentsDatum : (base.setEnv ⟨[], [0xA5A5], 0⟩).env.data = 0xA5A5 :: [] := rfl

theorem witness_FetchesReadTheCellAddressed :
    (3 : Word).toNat < 2 ^ smallCell.config.scratchAddrBits ∧ smallCell.cell (3 : Word).toNat = some 0x00AB ∧
    (smallCell.reg 2).toNat < 2 ^ smallCell.config.scratchAddrBits ∧
    smallCell.cell (smallCell.reg 2).toNat = some 0x00AB := by decide

theorem witness_StoresWriteOneCell :
    (3 : Word).toNat < 2 ^ small.config.scratchAddrBits ∧
    ((smallCell.reg 2).toNat < 2 ^ smallCell.config.scratchAddrBits ∧ smallCell.reg 2 = 3) := by decide

theorem witness_StoreThenFetchReturnsTheValue :
    (smallCell.reg 2).toNat < 2 ^ smallCell.config.scratchAddrBits ∧ smallCell.reg 2 = 3 ∧
    Instr.storeDir 1 3 ∈ [Instr.storeInd 1 2, Instr.storeDir 1 3] ∧
    Instr.fetchInd 2 2 ∈ [Instr.fetchInd 2 2, Instr.fetchDir 2 3] := by decide

theorem witness_AccessesBeyondTheScratchpadFault :
    2 ^ small.config.scratchAddrBits = (4 : Word).toNat ∧ (small.writeReg 2 4).reg 2 = 4 ∧
    2 ^ (small.writeReg 2 4).config.scratchAddrBits ≤ (4 : Word).toNat := by decide

theorem witness_FetchOfAnUnwrittenCellFaults :
    (3 : Word).toNat < 2 ^ small.config.scratchAddrBits ∧ small.cell (3 : Word).toNat = none ∧
    (small.writeReg 2 3).reg 2 = 3 ∧ (small.writeReg 2 3).cell (3 : Word).toNat = none := by decide

theorem witness_InterruptReturnsRestoreTheFlags :
    ∃ tos below, (small.setStack [7]).stack = tos :: below := ⟨_, _, rfl⟩

theorem witness_InterruptEntrySavesAndVectors :
    smallIrq.ie = true ∧ smallIrq.irqNow = true ∧ smallIrq.sp < smallIrq.config.stackDepth ∧
    (smallIrq.setStack [5]).sp + 1 = (smallIrq.setStack [5]).config.stackDepth := by decide

theorem witness_InterruptEntryOnAFullStackFaults :
    (smallIrq.setStack [6, 5]).ie = true ∧ (smallIrq.setStack [6, 5]).irqNow = true ∧
    (smallIrq.setStack [6, 5]).sp = (smallIrq.setStack [6, 5]).config.stackDepth := by decide

/-- The interrupted program at address 0, so that the pushed address wraps to 7; a handler has changed `pc` and ZERO. -/
theorem witness_InterruptReturnResumesTheProgram :
    smallIrq.Inv ∧ smallIrq.ie = true ∧ smallIrq.irqNow = true ∧ smallIrq.pc = 0 ∧
    ∃ t u : State, step smallIrq = .next t ∧ u.stack = t.stack ∧ u.savedZero = t.savedZero ∧
      u.savedCarry = t.savedCarry ∧ u.config = smallIrq.config ∧ u.zero ≠ t.zero ∧ u.stack = [7] :=
  ⟨witness_small_Inv.2.2.1, rfl, rfl, rfl, _, (small.setStack [7]).setFlags true false, rfl, rfl, rfl, rfl, rfl,
    by decide, rfl⟩

/-- Two steps of NOP with IE 0, `irq` 1 at both or 0 at both. -/
theorem witness_MaskedInterruptInputHasNoEffect :
    ∀ k t, k < 2 → steps k (presentIrqs small ([true, true] ++ [])) = .next t → t.ie = false := by
  intro k t hk h
  match k, hk with
  | 0, _ => cases h; rfl
  | 1, _ => cases h; rfl

/-- For WhatWritesAndReadsInterruptEnable too. -/
theorem witness_NopMovesOnlyThePc :
    smallIrq.ie = true ∧ smallIrq.irqNow = true ∧ smallIrq.fetchInstr = .ok .nop := by decide

theorem witness_WhatWritesAndReadsInterruptEnable_fault : exec .returnAlways small = .fault .stackUnderflow := rfl

/-- For WhatWritesAndReadsInterruptEnable and OneEventPerPortInstructionAndStoresAloneWrite, a form of each case that
answers. -/
theorem witness_exec_answers :
    (∃ t, exec .disint base = .next t) ∧ (∃ t, exec .enint base = .next t) ∧
    (∃ t, exec .nop base = .next t) ∧
    (∃ t, exec .retdis (small.setStack [7]) = .next t) ∧ (∃ t, exec .reten (small.setStack [7]) = .next t) ∧
    (∃ t, exec (.inputDir 1 2) base = .next t) ∧ (∃ t, exec (.inputInd 1 2) base = .next t) ∧
    (∃ t, exec (.outputDir 1 2) base = .next t) ∧ (∃ t, exec (.outputInd 1 2) base = .next t) ∧
    (∃ t, exec (.storeDir 1 3) small = .next t) ∧ (∃ t, exec (.storeInd 1 2) smallCell = .next t) :=
  ⟨⟨_, rfl⟩, ⟨_, rfl⟩, ⟨_, rfl⟩, ⟨_, rfl⟩, ⟨_, rfl⟩, ⟨_, rfl⟩, ⟨_, rfl⟩, ⟨_, rfl⟩, ⟨_, rfl⟩, ⟨_, rfl⟩,
    ⟨_, rfl⟩⟩

/-- An interrupt entry that answers, and an instruction step that answers, from states with the invariant: for
WhatWritesAndReadsInterruptEnable, OnlyInterruptEntryWritesTheSavedFlags, OnlyTheDestinationRegisterChanges,
OnlyCallsAndReturnsTouchTheStack, OneEventPerPortInstructionAndStoresAloneWrite, StepsNeverChangeTheProgram and StepKeepsTheInvariant. -/
theorem witness_steps_answer :
    (smallIrq.Inv ∧ smallIrq.interruptTaken = true ∧ ∃ t, step smallIrq = .next t) ∧
    (small.Inv ∧ small.interruptTaken = false ∧ ∃ t, step small = .next t) :=
  ⟨⟨witness_small_Inv.2.2.1, rfl, _, rfl⟩, ⟨witness_small_Inv.1, rfl, _, rfl⟩⟩

/-- Each clause: a row that writes no flag, a row that writes them, rows that read one flag alone, and faults. -/
theorem witness_FlagsAreWrittenAndReadByTheListedRows :
    (∃ t, exec (.loadImm 1 0) base = .next t ∧ writesFlags (.loadImm 1 0) = false) ∧
    (∃ t, exec (.addcyImm 1 0) base = .next t ∧ readsZero (.addcyImm 1 0) = false) ∧
    (∃ t, exec (.jumpZ 0) base = .next t ∧ readsCarry (.jumpZ 0) = false) ∧
    (exec .returnAlways small = .fault .stackUnderflow ∧ readsZero .returnAlways = false ∧
      readsCarry .returnAlways = false) ∧ readsZero (.jumpZ 0) = true ∧ readsCarry (.subcReg 1 1) = true ∧
    smallIrq.interruptTaken = true ∧ (∃ t, step smallIrq = .next t) :=
  ⟨⟨_, rfl, rfl⟩, ⟨_, rfl, rfl⟩, ⟨_, rfl, rfl⟩, ⟨rfl, rfl, rfl⟩, rfl, rfl, rfl, ⟨_, rfl⟩⟩

/-- For OnlyTheDestinationRegisterChanges too; an interrupt entry that answers stands in `witness_steps_answer`. -/
theorem witness_OnlyCallsAndReturnsTouchTheStack :
    ∃ t, exec (.loadImm 1 0) base = .next t ∧ usesStack (.loadImm 1 0) = false ∧
      destination (.loadImm 1 0) ≠ some 2 := ⟨_, rfl, rfl, by decide⟩

/-- One word at the last program address; two words that end there. -/
theorem witness_StepRunsTheDecodedInstruction :
    ((small.setPc 7).ie && (small.setPc 7).irqNow) = false ∧
    (small.setPc 7).pc.toNat < (small.setPc 7).config.progSize ∧
    decode small.config [(small.setPc 7).progWord 7, 0] = .ok (.nop, [0]) ∧
    hasSecond (((small.setPc 6).placeWord 6 0xAE01).progWord 6) = true ∧
    ((small.setPc 6).placeWord 6 0xAE01).pc.toNat + 1 < small.config.progSize ∧
    ((small.setPc 6).placeWord 6 0xAE01).pcPlus 1 = 7 ∧
    decode small.config [0xAE01, ((small.setPc 6).placeWord 6 0xAE01).progWord 7] = .ok (.loadImm 1 0, []) := by decide

/-- Word 1 at PROG_SIZE, and Word 1 at the last address with its Word 2 beyond it: in a program memory of 4 words, and
in one of 2^PC_WIDTH words (R52). Word 2 at the last address is there. -/
theorem witness_FetchBeyondProgramMemoryFaults :
    Stops [] (under (fun c => { c with progSize := 4 }) (small.setPc 4)) .fetchOutOfRange ∧
    Stops [0xAE01] (under (fun c => { c with progSize := 4 }) (small.setPc 3)) .fetchOutOfRange ∧
    Stops [0xAE01] (small.setPc 7) .fetchOutOfRange ∧ small.config.progSize = 2 ^ small.config.pcWidth ∧
    Stops [0xAE01] (base.setPc 0xFFFF) .fetchOutOfRange ∧ hasSecond 0xAE01 = true ∧
    small.config.legal ∧ (small.setPc 6).pc.toNat + 1 < small.config.progSize := by decide

theorem witness_TargetsBeyondPcWidthFaultAtDecode :
    (small.ie && small.irqNow) = false ∧ Instr.target (.callZ 8) = some 8 ∧
    2 ^ small.config.pcWidth = (8 : Word).toNat ∧ small.pc.toNat + 1 < small.config.progSize ∧
    encode (.callZ 8) = [(small.placeWords 0 [0x9400, 8]).progWord 0, (small.placeWords 0 [0x9400, 8]).progWord 1] := by
  decide

/-- An odd `op`, an unlisted even one, bit 15 that disagrees with the row, and a 1 in a field that must be zero: with and
without a Word 2. -/
theorem witness_UnlistedOpcodesFault :
    (hasSecond 0x0100 = false ∧ rowFor 0x0100 = none) ∧ (hasSecond 0x7E00 = false ∧ rowFor 0x7E00 = none) ∧
    (hasSecond 0x0200 = false ∧ rowFor 0x0200 = none) ∧ (hasSecond 0x3A10 = false ∧ rowFor 0x3A10 = none) ∧
    (hasSecond 0xEE00 = true ∧ rowFor 0xEE00 = none) ∧ (hasSecond 0xFFFF = true ∧ rowFor 0xFFFF = none) ∧
    (hasSecond 0x8400 = true ∧ rowFor 0x8400 = none) ∧ (hasSecond 0x8210 = true ∧ rowFor 0x8210 = none) ∧
    (small.setPc 7).pc.toNat < small.config.progSize ∧ (small.setPc 6).pc.toNat + 1 < small.config.progSize ∧
    (small.ie && small.irqNow) = false := by decide

/-- The encodings of R87 and R88 stop the step: `op` 6E with bit 15 1, ADD rX, rY with "2nd" 1, NOP with X not zero. -/
theorem test_illegal_encodings_stop :
    Stops [0xEE00, 0] base .illegalInstruction ∧ Stops [0x8400, 0] base .illegalInstruction ∧
    Stops [0x0001] base .illegalInstruction := by decide

theorem witness_EndOfRunLoopChangesNothing :
    endOfRun ((small.setPc 6).placeWords 6 [0xA400, 0x0006]) = true := by decide

/-- The bounds of the memories at power-up are met with a word in the last place of each. -/
theorem witness_ResetMeetsTheInvariant :
    small.config.legal ∧ Memory.wf .scratchpad [(3, 0)] ∧
    (∀ d ∈ ([(3, 0)] : Memory), d.1 < 2 ^ small.config.scratchAddrBits) ∧
    Memory.wf .program [(7, 1)] ∧ (∀ d ∈ ([(7, 1)] : Memory), d.1 < small.config.progSize) := by decide

theorem witness_DecodeOfEncodeIsTheInstruction :
    Instr.wellFormed small.config (.jump 7) = true ∧ Instr.wellFormed small.config (.addImm 15 0xFFFF) = true := by
  decide

theorem witness_DecodedWordsAreTheEncoding :
    decode small.config [0x8201, 0xFFFF, 0x0000] = .ok (.addImm 1 0xFFFF, [0x0000]) ∧
    decode small.config [0x04FF] = .ok (.addReg 15 15, []) := by decide

/-- One word, two words, and states that differ in everything else. -/
theorem witness_NoStateBitChangesDecoding :
    decode small.config [0x04FF, 0x1234] = .ok (.addReg 15 15, [0x1234]) ∧
    decode small.config [0x8201, 0xFFFF] = .ok (.addImm 1 0xFFFF, []) ∧ (encode .nop).head? = some 0 ∧
    smallIrq.config = small.config ∧ smallIrq.pc = small.pc ∧ smallIrq.ie ≠ small.ie ∧ smallIrq.prog = small.prog := by
  decide

end Sys2Proof.Tests
end

section
/-! PROOFS. Decoding depends on the words alone (`30_encoding.md` R89). -/

namespace Sys2Proof.Machine

/-! ### The fetch looks at the parameters, `pc` and program memory only -/

section FetchCongr

variable {s t : State}

theorem State.pcPlus_congr (hc : t.config = s.config) (hpc : t.pc = s.pc) (n : Nat) : t.pcPlus n = s.pcPlus n := by
  simp only [State.pcPlus, hc, hpc]

theorem State.progRead_congr (hc : t.config = s.config) (hp : ∀ a, t.progWord a = s.progWord a) (a : Word) :
    t.progRead a = s.progRead a := by
  simp only [State.progRead, hc, hp]

theorem State.readSecond_congr (hc : t.config = s.config) (hpc : t.pc = s.pc)
    (hp : ∀ a, t.progWord a = s.progWord a) : t.readSecond = s.readSecond := by
  simp only [State.readSecond, hc, hpc, hp, State.pcPlus_congr hc hpc]

theorem State.fetchWords_congr (hc : t.config = s.config) (hpc : t.pc = s.pc)
    (hp : ∀ a, t.progWord a = s.progWord a) : t.fetchWords = s.fetchWords := by
  simp only [State.fetchWords, hpc, State.progRead_congr hc hp, State.readSecond_congr hc hpc hp]

theorem State.fetchInstr_congr (hc : t.config = s.config) (hpc : t.pc = s.pc)
    (hp : ∀ a, t.progWord a = s.progWord a) : t.fetchInstr = s.fetchInstr := by
  simp only [State.fetchInstr, hc, State.fetchWords_congr hc hpc hp]

end FetchCongr

end Sys2Proof.Machine

namespace Sys2Proof

/-! ### How many words decoding takes -/

/-- With "2nd" 1 decoding takes Word 2 as well (`30_encoding.md` R80). -/
theorem decode_of_second {c : Config} {w1 w2 : Word} {rest : List Word} (h : hasSecond w1 = true) :
    decode c (w1 :: w2 :: rest) = (decodePair c w1 w2).map (fun i => (i, rest)) := by
  simp only [decode, h, if_true]

/-- With "2nd" 0 decoding takes Word 1 alone (`30_encoding.md` R80). -/
theorem decode_of_no_second {c : Config} {w1 : Word} {rest : List Word} (h : hasSecond w1 = false) :
    decode c (w1 :: rest) = (decodePair c w1 0).map (fun i => (i, rest)) := by
  simp only [decode, h, Bool.false_eq_true, if_false]

/-- The words left are the ones the decoder set aside, whichever instruction it found. -/
theorem left_eq_of_map_eq_ok {e : Except DecodeReject Instr} {rest left : List Word} {i : Instr}
    (h : e.map (fun j => (j, rest)) = .ok (i, left)) : left = rest := by
  cases e with
  | error r => exact absurd h (by simp [Except.map])
  | ok j => exact (Prod.mk.inj (Except.ok.inj h)).2.symm

/-- "2nd" alone says how many words decoding takes (`30_encoding.md` R80, R89). -/
theorem decode_left {c : Config} {w1 w2 : Word} {rest left : List Word} {i : Instr}
    (h : decode c (w1 :: w2 :: rest) = .ok (i, left)) :
    left = if hasSecond w1 = true then rest else w2 :: rest := by
  cases h2 : hasSecond w1 with
  | true => exact left_eq_of_map_eq_ok (decode_of_second h2 ▸ h)
  | false => exact left_eq_of_map_eq_ok (decode_of_no_second h2 ▸ h)

/-! ### The word 0x0000 -/

/-- The word 0x0000 fits the row of NOP (`30_encoding.md` R85). -/
theorem rowFor_zero : rowFor 0 = some ⟨0x00, .n, fun _ _ _ => .nop⟩ := rfl

theorem decodePair_zero (c : Config) (w2 : Word) : decodePair c 0 w2 = .ok .nop :=
  decodePair_of_row rowFor_zero

/-- The word 0x0000 decodes to NOP, whatever words follow (`30_encoding.md` R89). -/
theorem decode_zero (c : Config) (rest : List Word) : decode c (0 :: rest) = .ok (.nop, rest) := by
  rw [decode_of_no_second (by decide), decodePair_zero]
  rfl

/-- The field `op` of the word 0x0000 is zero. -/
theorem op_eq_zero_of_word1_eq_zero {second : Bool} {op : BitVec 7} {y x : Reg} (h : word1 second op y x = 0) :
    op = 0 := by
  have hn : (word1 second op y x).toNat = 0 := by rw [h]; rfl
  rw [word1_toNat] at hn
  have hop : op.toNat = 0 := by omega
  exact BitVec.eq_of_toNat_eq hop

/-- NOP alone has the `op` value 0x00, so no other instruction's words begin with 0x0000 (`30_encoding.md` R85, R89). -/
theorem eq_nop_of_encode_head?_eq_zero {i : Instr} (h : (encode i).head? = some 0) : i = .nop := by
  cases i with
  | nop => rfl
  | _ => exact absurd (op_eq_zero_of_word1_eq_zero (Option.some.inj h)) (by decide)

/-- Settles O59: the fetch is congruent in what it reads, "2nd" fixes the words taken, and NOP alone has `op` 0x00. -/
theorem noStateBitChangesDecoding : Obligations.NoStateBitChangesDecoding :=
  ⟨fun _ _ => Machine.State.fetchInstr_congr, fun _ _ _ _ _ _ => decode_left, decode_zero,
    fun _ => eq_nop_of_encode_head?_eq_zero⟩

end Sys2Proof
end

section
/-! PROOFS. LOAD rX, rY copies a register and writes no flag (`41_logical.md` R131). -/

namespace Sys2Proof

/-- The one word of format RR as a number (`30_encoding.md` R81, R83). -/
theorem encodeRR_toNat (op : BitVec 7) (x y : Reg) :
    (encodeRR op x y).map BitVec.toNat = [256 * op.toNat + 16 * y.val + x.val] := by
  simp only [encodeRR, List.map_cons, List.map_nil, word1_toNat, Bool.toNat_false, Nat.mul_zero, Nat.zero_add]

end Sys2Proof

namespace Sys2Proof.Machine

/-! ### Writing one register and moving on -/

section WriteRegAdvance

variable (s : State) (x : Reg) (v : Word) (len : Nat)

theorem keepsRegsBut_writeReg_advance : KeepsRegsBut [x] s ((s.writeReg x v).advance len) := by
  intro r hr
  have hne : r ≠ x := List.ne_of_not_mem_cons hr
  rw [State.advance_reg, State.writeReg_reg, if_neg hne]

theorem keepsBeyondRegisters_writeReg_advance : KeepsBeyondRegisters s ((s.writeReg x v).advance len) :=
  ⟨⟨rfl, rfl, rfl⟩, rfl, fun _ => rfl, ⟨fun _ => rfl, rfl⟩, rfl, rfl⟩

theorem loadsInto_writeReg_advance : LoadsInto x v len s ((s.writeReg x v).advance len) := by
  have hx : ((s.writeReg x v).advance len).reg x = v := by rw [State.advance_reg, State.writeReg_reg, if_pos rfl]
  exact ⟨hx, ⟨rfl, rfl⟩, rfl, keepsRegsBut_writeReg_advance s x v len, keepsBeyondRegisters_writeReg_advance s x v len⟩

end WriteRegAdvance

/-! ### LOAD -/

/-- LOAD with either operand always answers, with rX the operand (`41_logical.md` R130, R131). -/
theorem loadInto_loadsInto (x : Reg) (o : Operand) (s : State) :
    ∃ t, loadInto x o s = .next t ∧ LoadsInto x (operandValue s o) (operandLength o) s t :=
  ⟨_, rfl, loadsInto_writeReg_advance s x (operandValue s o) (operandLength o)⟩

/-- LOAD of a register into itself changes nothing but `pc`: the corner case of `41_logical.md` R131. -/
theorem loadInto_self (x : Reg) (s : State) : loadInto x (.reg x) s = .next (s.advance 1) := by
  simp only [loadInto, operandValue, operandLength, State.writeReg_self]

theorem exec_loadReg (x y : Reg) (s : State) : exec (.loadReg x y) s = loadInto x (.reg y) s := rfl

/-- Settles O7: the two laws of `loadInto` at the operand rY, and the word of format RR with `op` 0x30. -/
theorem loadRegisterWritesOneRegisterAndNoFlag : Obligations.LoadRegisterWritesOneRegisterAndNoFlag := by
  intro s x y
  rw [exec_loadReg, exec_loadReg]
  exact ⟨loadInto_loadsInto x (.reg y) s, loadInto_self x s, encodeRR_toNat 0x30 x y⟩

end Sys2Proof.Machine
end

section
/-! PROOFS. NOP moves only `pc` (`45_system.md` R220). -/

namespace Sys2Proof

/-! ### A word that decodes is the first word of the instruction's encoding -/

/-- What decodes fits a row of the map, and the row makes the instruction from the fields (`30_encoding.md` R86). -/
theorem exists_row_of_decodePair {c : Config} {w1 w2 : Word} {i : Instr} (h : decodePair c w1 w2 = .ok i) :
    ∃ r ∈ opcodeMap, rowFits r w1 = true ∧ r.make (fieldX w1) (fieldY w1) w2 = i := by
  cases hr : rowFor w1 with
  | none => simp [decodePair, hr] at h
  | some r =>
    rw [decodePair_of_row hr] at h
    split at h
    · exact ⟨r, List.mem_of_find?_eq_some hr, List.find?_some (p := fun r => rowFits r w1) hr, Except.ok.inj h⟩
    · exact absurd h (by simp)

/-- The words of format `f` with their fields (`30_encoding.md` R83). -/
def formatWords (f : Format) (op : BitVec 7) (x y : Reg) (w2 : Word) : List Word :=
  match f with
  | .n => encodeN op
  | .r => encodeR op x
  | .rr => encodeRR op x y
  | .ri => encodeRI op x w2
  | .a => encodeA op w2

/-- The first word of a format whose zero fields are zero (`30_encoding.md` R81, R83, R88). -/
theorem formatWords_head? {f : Format} {op : BitVec 7} {x y : Reg} {w2 : Word} (h : zeroFields f y x = true) :
    (formatWords f op x y w2).head? = some (word1 (formatSecond f) op y x) := by
  cases f with
  | rr => rfl
  | n | a =>
    obtain ⟨rfl, rfl⟩ : y = 0 ∧ x = 0 := by simpa [zeroFields] using h
    rfl
  | r | ri =>
    obtain rfl : y = 0 := by simpa [zeroFields] using h
    rfl

/-- The decoder's rows and the encoder agree: the instruction a row makes is encoded with the row's `op` and format
(`30_encoding.md` R85). -/
theorem encode_make {r : Row} (h : r ∈ opcodeMap) (x y : Reg) (w2 : Word) :
    encode (r.make x y w2) = formatWords r.format r.op x y w2 := by
  revert r
  simp only [opcodeMap, arithRows, logicRows, shiftRows, controlRows, accessRows, systemRows, List.cons_append,
    List.nil_append, List.forall_mem_cons, List.not_mem_nil, false_implies, implies_true, and_true]
  and_intros <;> rfl

/-- A Word 1 that decodes is the first word of the instruction it decodes to; no bit is ignored (`30_encoding.md` R86,
R88). -/
theorem encode_head?_of_decodePair {c : Config} {w1 w2 : Word} {i : Instr} (h : decodePair c w1 w2 = .ok i) :
    (encode i).head? = some w1 := by
  obtain ⟨r, hr, hfit, rfl⟩ := exists_row_of_decodePair h
  rw [← word1_of_fields w1, rowFits_word1] at hfit
  simp only [Bool.and_eq_true, beq_iff_eq] at hfit
  obtain ⟨⟨hsecond, hop⟩, hzero⟩ := hfit
  rw [encode_make hr, formatWords_head? hzero, ← hsecond, ← hop, word1_of_fields]

/-- The word 0x0000 and no other decodes to NOP (`30_encoding.md` R85, R88). -/
theorem decodePair_eq_nop_iff {c : Config} {w1 w2 : Word} : decodePair c w1 w2 = .ok .nop ↔ w1 = 0 := by
  constructor
  · intro h
    have hhead : some 0 = some w1 := encode_head?_of_decodePair h
    exact (Option.some.inj hhead).symm
  · rintro rfl
    exact decodePair_zero c w2

end Sys2Proof

namespace Sys2Proof.Machine

/-! ### Moving on -/

/-- Moving on keeps everything beyond `pc` and the stack (`10_state.md` R34). -/
theorem keepsBeyondControl_advance (s : State) (len : Nat) : KeepsBeyondControl s (s.advance len) :=
  ⟨fun _ _ => rfl, ⟨rfl, rfl⟩, ⟨rfl, rfl, rfl⟩, fun _ => rfl, ⟨fun _ => rfl, rfl⟩, rfl, rfl⟩

theorem exec_nop (s : State) : exec .nop s = .next (s.advance 1) := rfl

/-- A step is an interrupt entry exactly when IE and `irq` are both 1 (`60_exceptions.md` R244). -/
theorem State.interruptTaken_iff {s : State} : s.interruptTaken = true ↔ s.ie = true ∧ s.irqNow = true := by
  rw [State.interruptTaken, Bool.and_eq_true]

/-- Settles O31: NOP is `advance 1`, the decoder's rows agree with the encoder on what 0x0000 is, and `irq` is sampled
before the fetch, so an entry does not depend on what stands at `pc`. -/
theorem nopMovesOnlyThePc : Obligations.NopMovesOnlyThePc := by
  intro s
  refine ⟨⟨s.advance 1, exec_nop s, s.advance_pc 1, s.advance_stack 1, keepsBeyondControl_advance s 1⟩, ?_, ?_⟩
  · exact fun _ => decodePair_eq_nop_iff
  · exact fun hie hirq _ => step_of_interrupt (State.interruptTaken_iff.2 ⟨hie, hirq⟩)

end Sys2Proof.Machine
end

section
/-! PROOFS. What an instruction can do, said once: the 58 meanings have 14 shapes over the shared
operations, and a shape that answers has made one of 17 changes of the state. -/

namespace Sys2Proof.Machine

/-- The shapes of meaning of `Machine/Ops.lean` and `Machine/Operands.lean`. A shift is an `alu` shape whose function does
not look at its second operand. -/
inductive Shape where
  /-- rX and both flags take a function of rX and the operand. -/
  | alu (f : Word → Word → AluResult) (x : Reg) (o : Operand)
  /-- The same with a function that reads CARRY as well. -/
  | aluCarry (f : Bool → Word → Word → AluResult) (x : Reg) (o : Operand)
  /-- Both flags take a function of rX and the operand. -/
  | flags (f : Word → Word → AluResult) (x : Reg) (o : Operand)
  | load (x : Reg) (o : Operand)
  | input (x : Reg) (o : Operand)
  | output (x : Reg) (o : Operand)
  | fetch (x : Reg) (o : Operand)
  | store (x : Reg) (o : Operand)
  | jump (cond : Cond) (aaa : Word)
  | call (cond : Cond) (aaa : Word)
  | ret (cond : Cond)
  | nop
  /-- DISINT and ENINT. -/
  | setIe (b : Bool)
  /-- RETDIS and RETEN. -/
  | interruptReturn (b : Bool)

/-- The meaning of a shape, in the shared operations. -/
def Shape.run (s : State) : Shape → Result
  | .alu f x o => resultInto f x o s
  | .aluCarry f x o => resultInto (f s.carry) x o s
  | .flags f x o => flagsFrom f x o s
  | .load x o => loadInto x o s
  | .input x o => inputInto x o s
  | .output x o => outputFrom x o s
  | .fetch x o => fetchInto x o s
  | .store x o => storeFrom x o s
  | .jump cond aaa => jumpIf (condHolds s cond) aaa s
  | .call cond aaa => callIf (condHolds s cond) aaa s
  | .ret cond => returnIf (condHolds s cond) s
  | .nop => .next (s.advance 1)
  | .setIe b => .next ((s.setIe b).advance 1)
  | .interruptReturn b => returnFromInterrupt b s

/-- The shape of each instruction's meaning. -/
def shapeOf : Instr → Shape
  | .nop => .nop
  | .addImm x w => .alu (addResult · · false) x (.literal w)
  | .addReg x y => .alu (addResult · · false) x (.reg y)
  | .addcyImm x w => .aluCarry (fun c a b => addResult a b c) x (.literal w)
  | .addcyReg x y => .aluCarry (fun c a b => addResult a b c) x (.reg y)
  | .andImm x w => .alu (fun a b => logicResult (a &&& b)) x (.literal w)
  | .andReg x y => .alu (fun a b => logicResult (a &&& b)) x (.reg y)
  | .call a => .call .always a
  | .callC a => .call .c a
  | .callNC a => .call .nc a
  | .callZ a => .call .z a
  | .callNZ a => .call .nz a
  | .compImm x w => .flags compResult x (.literal w)
  | .compReg x y => .flags compResult x (.reg y)
  | .disint => .setIe false
  | .enint => .setIe true
  | .inputInd x y => .input x (.reg y)
  | .inputDir x w => .input x (.literal w)
  | .jump a => .jump .always a
  | .jumpC a => .jump .c a
  | .jumpNC a => .jump .nc a
  | .jumpZ a => .jump .z a
  | .jumpNZ a => .jump .nz a
  | .loadImm x w => .load x (.literal w)
  | .loadReg x y => .load x (.reg y)
  | .orImm x w => .alu (fun a b => logicResult (a ||| b)) x (.literal w)
  | .orReg x y => .alu (fun a b => logicResult (a ||| b)) x (.reg y)
  | .outputInd x y => .output x (.reg y)
  | .outputDir x w => .output x (.literal w)
  | .returnAlways => .ret .always
  | .returnC => .ret .c
  | .returnNC => .ret .nc
  | .returnZ => .ret .z
  | .returnNZ => .ret .nz
  | .retdis => .interruptReturn false
  | .reten => .interruptReturn true
  | .rl x => .alu (fun a _ => shiftLeft a (a.getLsbD 15)) x (.reg x)
  | .rr x => .alu (fun a _ => shiftRight a (a.getLsbD 0)) x (.reg x)
  | .sl0 x => .alu (fun a _ => shiftLeft a false) x (.reg x)
  | .sl1 x => .alu (fun a _ => shiftLeft a true) x (.reg x)
  | .sla x => .aluCarry (fun c a _ => shiftLeft a c) x (.reg x)
  | .slx x => .alu (fun a _ => shiftLeft a (a.getLsbD 0)) x (.reg x)
  | .sr0 x => .alu (fun a _ => shiftRight a false) x (.reg x)
  | .sr1 x => .alu (fun a _ => shiftRight a true) x (.reg x)
  | .sra x => .aluCarry (fun c a _ => shiftRight a c) x (.reg x)
  | .srx x => .alu (fun a _ => shiftRight a (a.getLsbD 15)) x (.reg x)
  | .subImm x w => .alu (subResult · · false) x (.literal w)
  | .subReg x y => .alu (subResult · · false) x (.reg y)
  | .subcImm x w => .aluCarry (fun c a b => subResult a b c) x (.literal w)
  | .subcReg x y => .aluCarry (fun c a b => subResult a b c) x (.reg y)
  | .testImm x w => .flags (fun a b => testResult (a &&& b)) x (.literal w)
  | .testReg x y => .flags (fun a b => testResult (a &&& b)) x (.reg y)
  | .xorImm x w => .alu (fun a b => logicResult (a ^^^ b)) x (.literal w)
  | .xorReg x y => .alu (fun a b => logicResult (a ^^^ b)) x (.reg y)
  | .fetchDir x w => .fetch x (.literal w)
  | .fetchInd x y => .fetch x (.reg y)
  | .storeDir x w => .store x (.literal w)
  | .storeInd x y => .store x (.reg y)

/-- Every instruction has the meaning of its shape: `exec` unfolded, once. -/
theorem exec_eq_run (i : Instr) (s : State) : exec i s = (shapeOf i).run s := by
  cases i <;> rfl

/-- What a shape that answers has done to the state. -/
inductive Change (s : State) : Shape → State → Prop
  | alu (f : Word → Word → AluResult) (x : Reg) (o : Operand) :
    Change s (.alu f x o) ((s.setResult x (f (s.reg x) (operandValue s o))).advance (operandLength o))
  | aluCarry (f : Bool → Word → Word → AluResult) (x : Reg) (o : Operand) :
    Change s (.aluCarry f x o)
      ((s.setResult x (f s.carry (s.reg x) (operandValue s o))).advance (operandLength o))
  | flags (f : Word → Word → AluResult) (x : Reg) (o : Operand) :
    Change s (.flags f x o) ((s.setResultFlags (f (s.reg x) (operandValue s o))).advance (operandLength o))
  | load (x : Reg) (o : Operand) :
    Change s (.load x o) ((s.writeReg x (operandValue s o)).advance (operandLength o))
  | input (x : Reg) (o : Operand) :
    Change s (.input x o)
      ((((s.logEvent (.input (operandValue s o) (s.portDatum (operandValue s o)))).setEnv
        { s.env with data := s.env.data.tail }).writeReg x (s.portDatum (operandValue s o))).advance (operandLength o))
  | output (x : Reg) (o : Operand) :
    Change s (.output x o) ((s.portWrite (operandValue s o) (s.reg x)).advance (operandLength o))
  | fetch (x : Reg) (o : Operand) (v : Word) (held : s.cell (operandValue s o).toNat = some v) :
    Change s (.fetch x o) ((s.writeReg x v).advance (operandLength o))
  | store (x : Reg) (o : Operand) (hrange : (operandValue s o).toNat < 2 ^ s.config.scratchAddrBits) :
    Change s (.store x o)
      ((s.setRam (Memory.write .scratchpad s.ram (operandValue s o).toNat (s.reg x))).advance (operandLength o))
  | jump (cond : Cond) (aaa : Word) : Change s (.jump cond aaa) (s.setPc aaa)
  | jumpPast (cond : Cond) (aaa : Word) : Change s (.jump cond aaa) (s.advance 2)
  | call (cond : Cond) (aaa : Word) (room : s.sp < s.config.stackDepth) :
    Change s (.call cond aaa) ((s.setStack (wrapPc s.config (s.pcPlus 1) :: s.stack)).setPc aaa)
  | callPast (cond : Cond) (aaa : Word) : Change s (.call cond aaa) (s.advance 2)
  | ret (cond : Cond) (tos : Word) (below : List Word) (held : s.stack = tos :: below) :
    Change s (.ret cond) ((s.setStack below).setPc (wrapPc s.config (tos + 1)))
  | retPast (cond : Cond) : Change s (.ret cond) (s.advance 1)
  | nop : Change s .nop (s.advance 1)
  | setIe (b : Bool) : Change s (.setIe b) ((s.setIe b).advance 1)
  | interruptReturn (b : Bool) (tos : Word) (below : List Word) (held : s.stack = tos :: below) :
    Change s (.interruptReturn b)
      ((((s.setStack below).setFlags s.savedZero s.savedCarry).setIe b).setPc (wrapPc s.config (tos + 1)))

/-- A shape that answers has made one of its changes. -/
theorem Shape.change_of_run {sh : Shape} {s t : State} (h : sh.run s = .next t) : Change s sh t := by
  cases sh with
  | alu f x o => obtain rfl := Host.Outcome.next.inj h; exact .alu f x o
  | aluCarry f x o => obtain rfl := Host.Outcome.next.inj h; exact .aluCarry f x o
  | flags f x o => obtain rfl := Host.Outcome.next.inj h; exact .flags f x o
  | load x o => obtain rfl := Host.Outcome.next.inj h; exact .load x o
  | input x o => obtain rfl := Host.Outcome.next.inj h; exact .input x o
  | output x o => obtain rfl := Host.Outcome.next.inj h; exact .output x o
  | fetch x o => obtain ⟨v, -, held, rfl⟩ := fetchInto_eq_next.1 h; exact .fetch x o v held
  | store x o => obtain ⟨hrange, rfl⟩ := storeFrom_eq_next.1 h; exact .store x o hrange
  | jump cond aaa =>
    obtain rfl := Host.Outcome.next.inj ((jumpIf_eq _ aaa s).symm.trans h)
    split
    · exact .jump cond aaa
    · exact .jumpPast cond aaa
  | call cond aaa =>
    obtain ⟨-, room, rfl⟩ | ⟨-, rfl⟩ := callIf_eq_next.1 h
    · exact .call cond aaa room
    · exact .callPast cond aaa
  | ret cond =>
    obtain ⟨-, tos, below, held, rfl⟩ | ⟨-, rfl⟩ := returnIf_eq_next.1 h
    · exact .ret cond tos below held
    · exact .retPast cond
  | nop => obtain rfl := Host.Outcome.next.inj h; exact .nop
  | setIe b => obtain rfl := Host.Outcome.next.inj h; exact .setIe b
  | interruptReturn b =>
    obtain ⟨tos, below, held, rfl⟩ := returnFromInterrupt_eq_next.1 h
    exact .interruptReturn b tos below held

/-- An instruction that answers has made one of the changes of its shape. -/
theorem change_of_exec {i : Instr} {s t : State} (h : exec i s = .next t) : Change s (shapeOf i) t :=
  Shape.change_of_run (exec_eq_run i s ▸ h)

end Sys2Proof.Machine
end

section
/-! PROOFS. Every step keeps the invariant (`10_state.md` section 1, `00_scope.md` R4). -/

namespace Sys2Proof.Machine

/-- The address a shape may transfer control to. -/
def Shape.target : Shape → Option Word
  | .jump _ aaa | .call _ aaa => some aaa
  | _ => none

theorem target_shapeOf (i : Instr) : (shapeOf i).target = i.target := by
  cases i <;> rfl

/-- The target of a well-formed instruction fits PC_WIDTH (`30_encoding.md` R84). -/
theorem target_fits_of_wellFormed {c : Config} {i : Instr} (h : i.wellFormed c = true) :
    ∀ aaa ∈ (shapeOf i).target, aaa.toNat < 2 ^ c.pcWidth := by
  intro aaa ha
  rw [target_shapeOf, Option.mem_def] at ha
  simpa [Instr.wellFormed, ha, Config.holdsAddress] using h

section Inv

variable {s t : State}

/-- The next address fits PC_WIDTH. -/
theorem State.pcPlus_fits (s : State) (n : Nat) : (s.pcPlus n).toNat < 2 ^ s.config.pcWidth := wrapPc_fits _ _

/-- The parameters and memories kept, the invariant needs `pc` and the stack looked at alone. -/
theorem State.Inv.of_pc_stack (hs : s.Inv) (hconfig : t.config = s.config) (hram : t.ram = s.ram)
    (hprog : t.prog = s.prog) (hpc : t.pc.toNat < 2 ^ s.config.pcWidth) (hheld : t.sp ≤ s.config.stackDepth)
    (hentries : ∀ v ∈ t.stack, v.toNat < 2 ^ s.config.pcWidth) : t.Inv where
  legal := hconfig ▸ hs.legal
  pc_fits := hconfig ▸ hpc
  stack_held := hconfig ▸ hheld
  entries_fit := hconfig ▸ hentries
  ram_wf := hram ▸ hs.ram_wf
  ram_fits := hconfig ▸ hram ▸ hs.ram_fits
  prog_wf := hprog ▸ hs.prog_wf
  prog_fits := hconfig ▸ hprog ▸ hs.prog_fits

/-- The parameters, memories and stack kept, the invariant needs `pc` looked at alone. -/
theorem State.Inv.of_pc (hs : s.Inv) (hconfig : t.config = s.config) (hram : t.ram = s.ram) (hprog : t.prog = s.prog)
    (hstack : t.stack = s.stack) (hpc : t.pc.toNat < 2 ^ s.config.pcWidth) : t.Inv :=
  hs.of_pc_stack hconfig hram hprog hpc ((congrArg List.length hstack).trans_le hs.stack_held)
    (hstack ▸ hs.entries_fit)

/-- One entry more on a stack with room, made by wrapping an address (`10_state.md` R25). -/
theorem State.Inv.of_push {v : Word} (hs : s.Inv) (room : s.sp < s.config.stackDepth) (hconfig : t.config = s.config)
    (hram : t.ram = s.ram) (hprog : t.prog = s.prog) (hstack : t.stack = wrapPc s.config v :: s.stack)
    (hpc : t.pc.toNat < 2 ^ s.config.pcWidth) : t.Inv :=
  hs.of_pc_stack hconfig hram hprog hpc ((congrArg List.length hstack).trans_le room)
    (hstack ▸ List.forall_mem_cons.2 ⟨wrapPc_fits _ _, hs.entries_fit⟩)

/-- One entry less (`10_state.md` R25). -/
theorem State.Inv.of_pop {tos : Word} (hs : s.Inv) (held : s.stack = tos :: t.stack) (hconfig : t.config = s.config)
    (hram : t.ram = s.ram) (hprog : t.prog = s.prog) (hpc : t.pc.toNat < 2 ^ s.config.pcWidth) : t.Inv := by
  have hlen : s.sp = t.sp + 1 := congrArg List.length held
  have hheld := hs.stack_held
  exact hs.of_pc_stack hconfig hram hprog hpc (by omega)
    fun v hv => hs.entries_fit v (held ▸ List.mem_cons_of_mem _ hv)

/-- A cell of the scratchpad written within its size (`10_state.md` R27). -/
theorem State.Inv.of_ramWrite {n : Nat} {v : Word} (hs : s.Inv) (hn : n < 2 ^ s.config.scratchAddrBits) :
    (s.setRam (Memory.write .scratchpad s.ram n v)).Inv where
  legal := hs.legal
  pc_fits := hs.pc_fits
  stack_held := hs.stack_held
  entries_fit := hs.entries_fit
  ram_wf := Memory.write_wf n v hs.ram_wf
  ram_fits := by
    intro c hc
    rw [State.setRam_ram] at hc
    obtain rfl | hmem := Memory.mem_write hc
    · exact hn
    · exact hs.ram_fits c hmem
  prog_wf := hs.prog_wf
  prog_fits := hs.prog_fits

/-- INT_VECTOR fits PC_WIDTH under right parameters (`00_scope.md` R4). -/
theorem State.Inv.intVector_fits (hs : s.Inv) : s.config.intVector.toNat < 2 ^ s.config.pcWidth := by
  obtain ⟨-, -, hprog, -, -, hvector⟩ := hs.legal
  omega

/-- Every change of a shape whose target fits PC_WIDTH keeps the invariant. -/
theorem Change.inv {sh : Shape} (h : Change s sh t) (hs : s.Inv)
    (htarget : ∀ aaa ∈ sh.target, aaa.toNat < 2 ^ s.config.pcWidth) : t.Inv := by
  cases h with
  | jump cond aaa => exact hs.of_pc rfl rfl rfl rfl (htarget aaa rfl)
  | call cond aaa room => exact hs.of_push room rfl rfl rfl rfl (htarget aaa rfl)
  | ret cond tos below held => exact hs.of_pop held rfl rfl rfl (wrapPc_fits _ _)
  | interruptReturn b tos below held => exact hs.of_pop held rfl rfl rfl (wrapPc_fits _ _)
  | store x o hrange => exact (hs.of_ramWrite hrange).of_pc rfl rfl rfl rfl (State.pcPlus_fits _ _)
  | _ => exact hs.of_pc rfl rfl rfl rfl (State.pcPlus_fits _ _)

/-- The invariant does not look at the environment. -/
theorem State.Inv.tick (hs : s.Inv) : s.tick.Inv := hs.of_pc rfl rfl rfl rfl hs.pc_fits

/-- Interrupt entry keeps the invariant. -/
theorem State.Inv.enterInterrupt (hs : s.Inv) (h : enterInterrupt s = .next t) : t.Inv := by
  obtain ⟨room, rfl⟩ := enterInterrupt_eq_next.1 h
  exact hs.of_push room rfl rfl rfl rfl hs.intVector_fits

end Inv

/-- Settles O53: a step is an interrupt entry or a change of the shape of a well-formed instruction, and both keep the
invariant. -/
theorem stepKeepsTheInvariant : Obligations.StepKeepsTheInvariant := by
  intro s t hs h
  obtain ⟨-, hentry⟩ | ⟨-, i, hfetch, hexec⟩ := step_cases h
  · exact hs.tick.enterInterrupt hentry
  · exact (change_of_exec hexec).inv hs.tick (target_fits_of_wellFormed (State.fetchInstr_wellFormed hfetch))

end Sys2Proof.Machine
end

section
/-! PROOFS. The opcode map: one row per instruction and at most one row per word; the encoder and the decoder are inverse
to each other (`30_encoding.md` sections 1 to 4). -/

namespace Sys2Proof

/-! ### The rows -/

/-- No two rows have the same `op` (`30_encoding.md` R85). -/
theorem ops_nodup : (opcodeMap.map Row.op).Nodup := by decide

/-- The `op` values no row has: the odd ones and those of `30_encoding.md` R87. -/
theorem op_unlisted_iff (op : BitVec 7) :
    op ∉ opcodeMap.map Row.op ↔ op.getLsbD 0 = true ∨ op ∈ [0x6C, 0x6E, 0x78, 0x7A, 0x7C, 0x7E] := by
  revert op
  decide

/-- A Word 1 fits a row when its "2nd" and `op` are the row's and the fields the format shows as zeros are zeros
(`30_encoding.md` R86, R88). -/
theorem rowFits_iff {r : Row} {w1 : Word} :
    rowFits r w1 = true ↔ hasSecond w1 = formatSecond r.format ∧ w1.extractLsb' 8 7 = r.op ∧
      zeroFields r.format (fieldY w1) (fieldX w1) = true := by
  conv_lhs => rw [← word1_of_fields w1, rowFits_word1]
  simp only [Bool.and_eq_true, beq_iff_eq, and_assoc]

theorem op_eq_of_rowFits {r : Row} {w1 : Word} (h : rowFits r w1 = true) : w1.extractLsb' 8 7 = r.op := by
  obtain ⟨-, hop, -⟩ := rowFits_iff.1 h
  exact hop

/-- The row of an `op` is the only one with it. -/
theorem row_eq_of_op_eq {r r' : Row} (hr : r ∈ opcodeMap) (hr' : r' ∈ opcodeMap) (h : r.op = r'.op) : r = r' :=
  List.inj_on_of_nodup_map ops_nodup hr hr' h

/-- Decoding finds the row that fits (`30_encoding.md` R86). -/
theorem rowFor_eq_some_iff {r : Row} {w1 : Word} : rowFor w1 = some r ↔ r ∈ opcodeMap ∧ rowFits r w1 = true := by
  constructor
  · intro h
    exact ⟨List.mem_of_find?_eq_some h, List.find?_some (p := fun r => rowFits r w1) h⟩
  · rintro ⟨hr, hfit⟩
    cases hfound : rowFor w1 with
    | none => exact absurd hfit (List.find?_eq_none.1 hfound r hr)
    | some r' =>
      have hr' := List.mem_of_find?_eq_some hfound
      have hfit' : rowFits r' w1 = true := List.find?_some (p := fun r => rowFits r w1) hfound
      rw [row_eq_of_op_eq hr' hr ((op_eq_of_rowFits hfit').symm.trans (op_eq_of_rowFits hfit))]

/-- A Word 1 is illegal when no row fits it (`30_encoding.md` R87, R88). -/
theorem rowFor_eq_none_iff {w1 : Word} : rowFor w1 = none ↔ ∀ r ∈ opcodeMap, rowFits r w1 ≠ true :=
  List.find?_eq_none

/-- The rows that fit a word all have its `op`. -/
theorem ops_of_fitting_rows (w1 : Word) : (opcodeMap.filter (fun r => rowFits r w1)).map Row.op =
    List.replicate (opcodeMap.filter (fun r => rowFits r w1)).length (w1.extractLsb' 8 7) := by
  refine List.eq_replicate_iff.2 ⟨List.length_map _, fun op hop => ?_⟩
  obtain ⟨r, hr, rfl⟩ := List.mem_map.1 hop
  exact (op_eq_of_rowFits (List.mem_filter.1 hr).2).symm

/-- Settles O57: the rows that fit all have the word's `op`, and no two rows have the same. -/
theorem atMostOneRowFits : Obligations.AtMostOneRowFits := by
  intro w1
  have hnodup : ((opcodeMap.filter (fun r => rowFits r w1)).map Row.op).Nodup :=
    ops_nodup.sublist (List.filter_sublist.map Row.op)
  rw [ops_of_fitting_rows] at hnodup
  exact List.nodup_replicate.1 hnodup

/-! ### The words of an instruction -/

/-- The words of a format whose zero fields are zero: Word 1 from its fields, and Word 2 when "2nd" is 1
(`30_encoding.md` R81, R83). -/
theorem formatWords_eq {f : Format} {op : BitVec 7} {x y : Reg} {w2 : Word} (h : zeroFields f y x = true) :
    formatWords f op x y w2 = word1 (formatSecond f) op y x :: if formatSecond f = true then [w2] else [] := by
  cases f with
  | rr => rfl
  | n | a =>
    obtain ⟨rfl, rfl⟩ : y = 0 ∧ x = 0 := by simpa [zeroFields] using h
    rfl
  | r | ri =>
    obtain rfl : y = 0 := by simpa [zeroFields] using h
    rfl

/-- The words of the instruction that a row makes from a Word 1 it fits begin with that word (`30_encoding.md` R85,
R88). -/
theorem encode_of_rowFits {r : Row} {w1 : Word} (hr : r ∈ opcodeMap) (hfit : rowFits r w1 = true) (w2 : Word) :
    encode (r.make (fieldX w1) (fieldY w1) w2) = w1 :: if hasSecond w1 = true then [w2] else [] := by
  obtain ⟨hsecond, hop, hzero⟩ := rowFits_iff.1 hfit
  rw [encode_make hr, formatWords_eq hzero, ← hsecond, ← hop, word1_of_fields]

/-- Every instruction has the words of one of the five formats, with no Word 2 in a one-word format, and their first word
fits the row that makes the instruction (`30_encoding.md` R83, R85). -/
theorem encode_format (i : Instr) : ∃ (f : Format) (op : BitVec 7) (x y : Reg) (w2 : Word),
    encode i = formatWords f op x y w2 ∧ zeroFields f y x = true ∧ (formatSecond f = false → w2 = 0) ∧
    ∃ r, rowFor (word1 (formatSecond f) op y x) = some r ∧ r.make x y w2 = i := by
  cases i with
  | nop | disint | enint | returnAlways | returnC | returnNC | returnZ | returnNZ | retdis | reten =>
    exact ⟨.n, _, 0, 0, 0, rfl, rfl, fun _ => rfl, _, (rowFor_word1 _ _ _ _).trans rfl, rfl⟩
  | rl x | rr x | sl0 x | sl1 x | sla x | slx x | sr0 x | sr1 x | sra x | srx x =>
    exact ⟨.r, _, x, 0, 0, rfl, rfl, fun _ => rfl, _, (rowFor_word1 _ _ _ _).trans rfl, rfl⟩
  | addReg x y | addcyReg x y | andReg x y | compReg x y | inputInd x y | loadReg x y | orReg x y | outputInd x y
  | subReg x y | subcReg x y | testReg x y | xorReg x y | fetchInd x y | storeInd x y =>
    exact ⟨.rr, _, x, y, 0, rfl, rfl, fun _ => rfl, _, (rowFor_word1 _ _ _ _).trans rfl, rfl⟩
  | addImm x w | addcyImm x w | andImm x w | compImm x w | inputDir x w | loadImm x w | orImm x w | outputDir x w
  | subImm x w | subcImm x w | testImm x w | xorImm x w | fetchDir x w | storeDir x w =>
    exact ⟨.ri, _, x, 0, w, rfl, rfl, nofun, _, (rowFor_word1 _ _ _ _).trans rfl, rfl⟩
  | call w | callC w | callNC w | callZ w | callNZ w | jump w | jumpC w | jumpNC w | jumpZ w | jumpNZ w =>
    exact ⟨.a, _, 0, 0, w, rfl, rfl, nofun, _, (rowFor_word1 _ _ _ _).trans rfl, rfl⟩

/-- The words of an instruction: the first fits its row, from which the decoder makes the instruction. -/
theorem exists_words (i : Instr) : ∃ (r : Row) (w1 w2 : Word), rowFor w1 = some r ∧
    r.make (fieldX w1) (fieldY w1) w2 = i ∧ encode i = (w1 :: if hasSecond w1 = true then [w2] else []) ∧
    (hasSecond w1 = false → w2 = 0) := by
  obtain ⟨f, op, x, y, w2, hwords, hzero, hone, r, hrow, hmake⟩ := encode_format i
  refine ⟨r, _, w2, hrow, ?_, ?_, ?_⟩
  · rw [fieldX_word1, fieldY_word1, hmake]
  · rw [hwords, formatWords_eq hzero, hasSecond_word1]
  · rwa [hasSecond_word1]

/-! ### The round trips -/

/-- Decoding the words of an instruction, whatever words follow, gives it back when it is well formed, and otherwise
rejects its address (`30_encoding.md` R84, R86). -/
theorem decode_encode (c : Config) (i : Instr) (rest : List Word) :
    decode c (encode i ++ rest) = if i.wellFormed c = true then .ok (i, rest) else .error .addressOutOfRange := by
  obtain ⟨r, w1, w2, hrow, hmake, hwords, hone⟩ := exists_words i
  have hpair : decodePair c w1 w2 = if i.wellFormed c = true then .ok i else .error .addressOutOfRange := by
    rw [decodePair_of_row hrow, hmake]
  rw [hwords]
  cases h2 : hasSecond w1 with
  | true =>
    show decode c (w1 :: w2 :: rest) = _
    rw [decode_of_second h2, hpair]
    split <;> rfl
  | false =>
    show decode c (w1 :: rest) = _
    rw [decode_of_no_second h2, ← hone h2, hpair]
    split <;> rfl

/-- Settles O54: a well-formed instruction's words fit its row, from which its fields are read back. -/
theorem decodeOfEncodeIsTheInstruction : Obligations.DecodeOfEncodeIsTheInstruction := by
  intro c i rest h
  rw [decode_encode, if_pos h]

/-- What decodes from Word 1 and Word 2 has those words, the second when "2nd" is 1. -/
theorem encode_of_decodePair {c : Config} {w1 w2 : Word} {i : Instr} (h : decodePair c w1 w2 = .ok i) :
    encode i = w1 :: if hasSecond w1 = true then [w2] else [] := by
  obtain ⟨r, hr, hfit, rfl⟩ := exists_row_of_decodePair h
  exact encode_of_rowFits hr hfit w2

/-- The decoder answers with the instruction found and the words it set aside. -/
theorem map_eq_ok_iff {e : Except DecodeReject Instr} {rest left : List Word} {i : Instr} :
    e.map (fun j => (j, rest)) = .ok (i, left) ↔ e = .ok i ∧ left = rest := by
  cases e <;> simp [Except.map, eq_comm]

/-- Settles O55: by the number of words that Word 1's "2nd" asks for. -/
theorem decodedWordsAreTheEncoding : Obligations.DecodedWordsAreTheEncoding := by
  intro c ws rest i h
  match ws with
  | [] => cases h
  | w1 :: tail =>
    cases h2 : hasSecond w1 with
    | false =>
      rw [decode_of_no_second h2, map_eq_ok_iff] at h
      obtain ⟨hpair, rfl⟩ := h
      simp [encode_of_decodePair hpair, h2]
    | true =>
      match tail with
      | [] => simp [decode, h2] at h
      | w2 :: tail' =>
        rw [decode_of_second h2, map_eq_ok_iff] at h
        obtain ⟨hpair, rfl⟩ := h
        simp [encode_of_decodePair hpair, h2]

/-- Settles O56: an instruction's first word fits its row, and the row a word fits makes an instruction that begins with
it. -/
theorem illegalWordsAreThoseNoInstructionBegins : Obligations.IllegalWordsAreThoseNoInstructionBegins := by
  intro w1
  constructor
  · intro hnone i hhead
    obtain ⟨r, w, w2, hrow, -, hwords, -⟩ := exists_words i
    rw [hwords, List.head?_cons, Option.some.injEq] at hhead
    rw [← hhead, hrow] at hnone
    cases hnone
  · intro hno
    cases hrow : rowFor w1 with
    | none => rfl
    | some r =>
      obtain ⟨hr, hfit⟩ := rowFor_eq_some_iff.1 hrow
      exact absurd (by rw [encode_of_rowFits hr hfit 0, List.head?_cons]) (hno (r.make (fieldX w1) (fieldY w1) 0))

/-! ### The Words 1 that fit no row -/

/-- The lower byte of a Word 1 under a format's mask: which of its fields must be zero (`30_encoding.md` R86, R88). -/
theorem masked_low_byte_eq_zero_iff (f : Format) (w1 : Word) :
    (w1 &&& formatMask f).extractLsb' 0 8 = 0 ↔ zeroFields f (fieldY w1) (fieldX w1) = true := by
  conv_lhs => rw [← word1_of_fields w1, word1_bytes, formatMask_bytes, BitVec.and_append]
  rw [BitVec.extractLsb'_append_eq_right, lowMask_fields]

/-- A Word 1 does not fit the row of its own `op` when "2nd" or a field that must be zero is wrong (`30_encoding.md`
R88). -/
theorem not_rowFits_iff_of_op {r : Row} {w1 : Word} (hop : r.op = w1.extractLsb' 8 7) : rowFits r w1 ≠ true ↔
    w1.getLsbD 15 ≠ formatSecond r.format ∨ (w1 &&& formatMask r.format).extractLsb' 0 8 ≠ 0 := by
  rw [ne_eq, rowFits_iff, ne_eq, ne_eq, masked_low_byte_eq_zero_iff, ← not_and_or]
  exact not_congr (and_congr_right fun _ => and_iff_right hop.symm)

/-- Bit 8 of Word 1 is the lowest bit of `op`. -/
theorem op_getLsbD_zero (w1 : Word) : (w1.extractLsb' 8 7).getLsbD 0 = w1.getLsbD 8 := by
  simp

/-- The Words 1 that fit no row (`30_encoding.md` R87, R88): those whose `op` no row has, and those that do not fit the
row of their `op`. -/
theorem rowFor_eq_none_iff_listed (w1 : Word) : rowFor w1 = none ↔
    w1.getLsbD 8 = true ∨ w1.extractLsb' 8 7 ∈ [0x6C, 0x6E, 0x78, 0x7A, 0x7C, 0x7E] ∨
      ∃ r ∈ opcodeMap, r.op = w1.extractLsb' 8 7 ∧
        (w1.getLsbD 15 ≠ formatSecond r.format ∨ (w1 &&& formatMask r.format).extractLsb' 0 8 ≠ 0) := by
  rw [rowFor_eq_none_iff, ← or_assoc, ← op_getLsbD_zero, ← op_unlisted_iff]
  constructor
  · intro hno
    by_cases hop : w1.extractLsb' 8 7 ∈ opcodeMap.map Row.op
    · obtain ⟨r, hr, hrop⟩ := List.mem_map.1 hop
      exact .inr ⟨r, hr, hrop, (not_rowFits_iff_of_op hrop).1 (hno r hr)⟩
    · exact .inl hop
  · rintro (hop | ⟨r, hr, hrop, hwrong⟩) r' hr' hfit
    · exact hop (List.mem_map.2 ⟨r', hr', (op_eq_of_rowFits hfit).symm⟩)
    · obtain rfl := row_eq_of_op_eq hr hr' (hrop.trans (op_eq_of_rowFits hfit))
      exact (not_rowFits_iff_of_op hrop).2 hwrong hfit

/-- Settles O58: each word's row is found by evaluation. -/
theorem wordsOfTheTableDecode : Obligations.WordsOfTheTableDecode := by
  unfold Obligations.WordsOfTheTableDecode
  decide

/-! ### A host's byte image -/

/-- A word is its upper byte before its lower byte (`20_memory.md` R51). -/
theorem bytes_append (w : Word) : w.extractLsb' 8 8 ++ w.extractLsb' 0 8 = w := by
  rw [BitVec.extractLsb'_append_extractLsb'_eq_extractLsb' (by rfl), BitVec.extractLsb'_eq_self]

/-- Settles O60: by induction on the words. -/
theorem byteImagesGiveBackTheirWords : Obligations.ByteImagesGiveBackTheirWords := by
  intro o ws
  induction ws with
  | nil => rfl
  | cons w ws ih =>
    cases o with
    | big => exact congrArg₂ List.cons (bytes_append w) ih
    | little => exact congrArg₂ List.cons (bytes_append w) ih

end Sys2Proof
end

section
/-! PROOFS. The fetch of a step: which words it takes, and the faults of fetch and decode in the order of
`60_exceptions.md` R241. -/

namespace Sys2Proof.Machine

section Fetch

variable {s : State}

/-! ### The words at `pc` -/

theorem State.fetchWords_of_first_outside (h1 : s.config.progSize ≤ s.pc.toNat) :
    s.fetchWords = .error .fetchOutOfRange := by
  simp only [State.fetchWords, State.progRead_eq_error.2 ⟨h1, rfl⟩]

theorem State.fetchWords_of_second_outside (h1 : s.pc.toNat < s.config.progSize)
    (h2 : hasSecond (s.progWord s.pc.toNat) = true) (h3 : s.config.progSize ≤ s.pc.toNat + 1) :
    s.fetchWords = .error .fetchOutOfRange := by
  simp only [State.fetchWords, State.progRead_eq_ok.2 ⟨h1, rfl⟩, h2, if_true, State.readSecond_eq_error.2 ⟨h3, rfl⟩]

theorem State.fetchWords_of_one (h1 : s.pc.toNat < s.config.progSize)
    (h2 : hasSecond (s.progWord s.pc.toNat) = false) : s.fetchWords = .ok [s.progWord s.pc.toNat] := by
  simp only [State.fetchWords, State.progRead_eq_ok.2 ⟨h1, rfl⟩, h2, Bool.false_eq_true, if_false]

theorem State.fetchWords_of_two (h2 : hasSecond (s.progWord s.pc.toNat) = true)
    (h3 : s.pc.toNat + 1 < s.config.progSize) :
    s.fetchWords = .ok [s.progWord s.pc.toNat, s.progWord (s.pcPlus 1).toNat] := by
  simp only [State.fetchWords, State.progRead_eq_ok.2 ⟨Nat.lt_of_succ_lt h3, rfl⟩, h2, if_true,
    State.readSecond_eq_ok.2 ⟨h3, rfl⟩]

/-! ### Fetch and decode -/

theorem State.fetchInstr_of_fetchWords_error {f : Fault} (h : s.fetchWords = .error f) : s.fetchInstr = .error f := by
  simp only [State.fetchInstr, h]

theorem State.fetchInstr_of_decode {ws rest : List Word} {i : Instr} (h : s.fetchWords = .ok ws)
    (hd : decode s.config ws = .ok (i, rest)) : s.fetchInstr = .ok i := by
  simp only [State.fetchInstr, h, hd]

theorem State.fetchInstr_of_decode_error {ws : List Word} {e : DecodeReject} (h : s.fetchWords = .ok ws)
    (hd : decode s.config ws = .error e) : s.fetchInstr = .error (faultOfReject e) := by
  simp only [State.fetchInstr, h, hd]

/-- A Word 1 that fits no row, its Word 2 within program memory, is rejected (`30_encoding.md` R87, R88). -/
theorem State.fetchInstr_of_no_row (h1 : s.pc.toNat < s.config.progSize)
    (h3 : hasSecond (s.progWord s.pc.toNat) = true → s.pc.toNat + 1 < s.config.progSize)
    (hrow : rowFor (s.progWord s.pc.toNat) = none) : s.fetchInstr = .error .illegalInstruction := by
  have hpair : ∀ w2, decodePair s.config (s.progWord s.pc.toNat) w2 = .error .illegalInstruction := by
    intro w2
    simp only [decodePair, hrow]
  cases h2 : hasSecond (s.progWord s.pc.toNat) with
  | true =>
    refine State.fetchInstr_of_decode_error (State.fetchWords_of_two h2 (h3 h2)) (e := .illegalInstruction) ?_
    rw [decode_of_second h2, hpair]
    rfl
  | false =>
    refine State.fetchInstr_of_decode_error (State.fetchWords_of_one h1 h2) (e := .illegalInstruction) ?_
    rw [decode_of_no_second h2, hpair]
    rfl

/-- What the two words at `pc` decode to is what is fetched, be it of one word or of two (`10_state.md` R34). -/
theorem State.fetchInstr_of_decode_pair {w2 : Word} {i : Instr} {rest : List Word}
    (h1 : s.pc.toNat < s.config.progSize) (h3 : hasSecond (s.progWord s.pc.toNat) = true →
      s.pc.toNat + 1 < s.config.progSize ∧ s.progWord (s.pcPlus 1).toNat = w2)
    (hd : decode s.config [s.progWord s.pc.toNat, w2] = .ok (i, rest)) : s.fetchInstr = .ok i := by
  cases h2 : hasSecond (s.progWord s.pc.toNat) with
  | true =>
    obtain ⟨hin, rfl⟩ := h3 h2
    exact State.fetchInstr_of_decode (State.fetchWords_of_two h2 hin) hd
  | false =>
    rw [decode_of_no_second h2, map_eq_ok_iff] at hd
    refine State.fetchInstr_of_decode (State.fetchWords_of_one h1 h2) (rest := []) ?_
    rw [decode_of_no_second h2, map_eq_ok_iff]
    exact ⟨hd.1, rfl⟩

/-- A step's sample of `irq` changes the environment alone. -/
theorem State.sameMachine_tick (s : State) : SameMachine s s.tick := rfl

end Fetch

/-- Settles O40: the step fetches what the words at `pc` decode to. -/
theorem stepRunsTheDecodedInstruction : Obligations.StepRunsTheDecodedInstruction := by
  rintro s _ w2 i rest hirq h1 rfl h3 hd
  exact ⟨step_of_fetch hirq (State.fetchInstr_of_decode_pair h1 h3 hd), s.sameMachine_tick⟩

/-- Settles O41: the two range checks of the fetch; under right parameters `pc + 1` does not wrap. -/
theorem fetchBeyondProgramMemoryFaults : Obligations.FetchBeyondProgramMemoryFaults := by
  refine ⟨fun s hirq => ⟨fun h1 => ?_, fun h1 h2 h3 => ?_⟩, fun s hlegal h3 h2 => ?_⟩
  · exact step_of_fetch_error hirq (State.fetchInstr_of_fetchWords_error (State.fetchWords_of_first_outside h1))
  · exact step_of_fetch_error hirq
      (State.fetchInstr_of_fetchWords_error (State.fetchWords_of_second_outside h1 h2 h3))
  · obtain ⟨-, hwidth, hprog, -⟩ := hlegal
    rw [State.fetchWords_of_two h2 h3, State.pcPlus_one_toNat hwidth hprog h3]

/-- An instruction of two words has "2nd" 1 in the first (`30_encoding.md` R80). -/
theorem hasSecond_of_encode_eq_pair {i : Instr} {w1 w2 : Word} (h : encode i = [w1, w2]) : hasSecond w1 = true := by
  obtain ⟨-, w, v, -, -, hwords, -⟩ := exists_words i
  rw [hwords, List.cons.injEq] at h
  obtain ⟨rfl, hrest⟩ := h
  by_contra h2
  rw [if_neg h2] at hrest
  cases hrest

/-- An instruction whose target has a bit at or above PC_WIDTH is not well formed (`30_encoding.md` R84). -/
theorem not_wellFormed_of_target {c : Config} {i : Instr} {aaa : Word} (ht : i.target = some aaa)
    (hwide : 2 ^ c.pcWidth ≤ aaa.toNat) : ¬ i.wellFormed c = true := by
  simpa [Instr.wellFormed, ht, Config.holdsAddress] using hwide

/-- Settles O42: the check of `aaa` is the decoder's, before any flag is looked at. -/
theorem targetsBeyondPcWidthFaultAtDecode : Obligations.TargetsBeyondPcWidthFaultAtDecode := by
  intro s i aaa hirq ht hwide h3 hwords
  have hfetch := State.fetchWords_of_two (hasSecond_of_encode_eq_pair hwords) h3
  have hdecode : decode s.config (encode i ++ []) = .error .addressOutOfRange := by
    rw [decode_encode, if_neg (not_wellFormed_of_target ht hwide)]
  rw [List.append_nil, hwords] at hdecode
  exact step_of_fetch_error hirq (State.fetchInstr_of_decode_error hfetch hdecode)

/-- Settles O43: a Word 1 without a row is rejected by the decoder, and such words are those of R87 and R88. -/
theorem unlistedOpcodesFault : Obligations.UnlistedOpcodesFault :=
  ⟨fun _ hirq h1 h3 hrow => step_of_fetch_error hirq (State.fetchInstr_of_no_row h1 h3 hrow), rowFor_eq_none_iff_listed⟩

/-- At the end of a run the next step executes a JUMP to its own address (`70_reset_and_hazards.md` R275). -/
theorem endOfRun_eq_true {s : State} (h : endOfRun s = true) :
    s.interruptTaken = false ∧ s.fetchInstr = .ok (.jump s.pc) := by
  rw [endOfRun, Bool.and_eq_true, Bool.not_eq_true', State.tick_fetchInstr] at h
  obtain ⟨hirq, hjump⟩ := h
  split at hjump
  · next aaa hfetch => exact ⟨hirq, hfetch.trans (by rw [beq_iff_eq.1 hjump])⟩
  · cases hjump

/-- Settles O49: that JUMP writes to `pc` what it holds. -/
theorem endOfRunLoopChangesNothing : Obligations.EndOfRunLoopChangesNothing := by
  intro s h
  obtain ⟨hirq, hfetch⟩ := endOfRun_eq_true h
  have hjump : exec (.jump s.pc) s.tick = .next (s.tick.setPc s.pc) := rfl
  exact ⟨(step_of_fetch hirq hfetch).trans hjump, s.sameMachine_tick⟩

end Sys2Proof.Machine
end

section
/-! PROOFS. What a result or a pair of flags written into the state leaves: the frame of the arithmetic, logical and shift
instructions. -/

namespace Sys2Proof.Machine

/-- rX and the flags take the result, `pc` moves past the instruction, and nothing else changes. -/
theorem resultInto_answers (f : Word → Word → AluResult) (x : Reg) (o : Operand) (s : State) :
    ∃ t, resultInto f x o s = .next t ∧ t.reg x = (f (s.reg x) (operandValue s o)).value ∧
      t.zero = (f (s.reg x) (operandValue s o)).zero ∧ t.carry = (f (s.reg x) (operandValue s o)).carry ∧
      t.pc = s.pcPlus (operandLength o) ∧ KeepsRegsBut [x] s t ∧ KeepsBeyondRegisters s t := by
  refine ⟨_, rfl, ?_, rfl, rfl, rfl, fun r hr => ?_, ⟨rfl, rfl, rfl⟩, rfl, fun _ => rfl, ⟨fun _ => rfl, rfl⟩, rfl, rfl⟩
  · rw [State.advance_reg, State.setResult_reg, if_pos rfl]
  · rw [State.advance_reg, State.setResult_reg, if_neg (List.ne_of_not_mem_cons hr)]

/-- The flags take those of the result, `pc` moves past the instruction, and nothing else changes. -/
theorem flagsFrom_answers (f : Word → Word → AluResult) (x : Reg) (o : Operand) (s : State) :
    ∃ t, flagsFrom f x o s = .next t ∧ t.zero = (f (s.reg x) (operandValue s o)).zero ∧
      t.carry = (f (s.reg x) (operandValue s o)).carry ∧ t.pc = s.pcPlus (operandLength o) ∧ KeepsRegsBut [] s t ∧
      KeepsBeyondRegisters s t :=
  ⟨_, rfl, rfl, rfl, rfl, fun _ _ => rfl, ⟨rfl, rfl, rfl⟩, rfl, fun _ => rfl, ⟨fun _ => rfl, rfl⟩, rfl, rfl⟩

/-- A shift is a result that does not depend on a second operand. -/
theorem shiftInto_eq_resultInto (f : Word → Bool → AluResult) (x : Reg) (s : State) :
    shiftInto f x s = resultInto (fun a _ => f a s.carry) x (.reg x) s := rfl

/-- ZERO of a 16-bit result, by its value. -/
theorem zeroOf_iff_toNat (v : Word) : zeroOf v = true ↔ v.toNat = 0 := by
  rw [zeroOf_eq_true, ← BitVec.toNat_inj]
  rfl

/-- ZERO of a 16-bit result, by its bits. -/
theorem zeroOf_iff_bits (v : Word) : zeroOf v = true ↔ ∀ i, i < 16 → v.getLsbD i = false := by
  rw [zeroOf_eq_true]
  constructor
  · rintro rfl i -
    exact BitVec.getLsbD_zero
  · intro h
    exact BitVec.eq_of_getLsbD_eq fun i hi => (h i hi).trans BitVec.getLsbD_zero.symm

end Sys2Proof.Machine
end

section
/-! PROOFS. The arithmetic instructions (`40_arithmetic.md`). -/

namespace Sys2Proof.Machine

/-! ### The sum and the difference as numbers -/

theorem toNat_decide (p : Prop) [Decidable p] : (decide p).toNat = if p then 1 else 0 :=
  apply_ite Bool.toNat p true false

/-- The sum is its 16 bits and its carry out, weighted (`40_arithmetic.md` R120). -/
theorem addResult_total (a b : Word) (c : Bool) :
    (addResult a b c).value.toNat + 65536 * (addResult a b c).carry.toNat = a.toNat + b.toNat + c.toNat := by
  have ha := a.isLt
  have hb := b.isLt
  have hc := Bool.toNat_le c
  rw [addResult_value_toNat, addResult_carry, toNat_decide]
  split <;> omega

/-- The difference, what was subtracted and the borrow, weighted (`40_arithmetic.md` R120). -/
theorem subResult_total (a b : Word) (c : Bool) :
    (subResult a b c).value.toNat + b.toNat + c.toNat = a.toNat + 65536 * (subResult a b c).carry.toNat := by
  have ha := a.isLt
  have hb := b.isLt
  have hc := Bool.toNat_le c
  rw [subResult_value_toNat, subResult_carry, toNat_decide]
  split <;> omega

/-- The difference modulo 65536 (`40_arithmetic.md` R120). -/
theorem subResult_value_int (a b : Word) (c : Bool) :
    ((subResult a b c).value.toNat : Int) = ((a.toNat : Int) - b.toNat - c.toNat) % 65536 := by
  have htotal := subResult_total a b c
  have hlt := (subResult a b c).value.isLt
  omega

theorem subResult_carry_iff (a b : Word) (c : Bool) :
    (subResult a b c).carry = true ↔ (a.toNat : Int) - b.toNat - c.toNat < 0 := decide_eq_true_iff

/-! ### Each family's meaning -/

/-- ADD and ADDCY, with either operand and either CARRY in. -/
theorem resultInto_sumInto (c : Bool) (x : Reg) (o : Operand) (s : State) :
    ∃ t, resultInto (fun a b => addResult a b c) x o s = .next t ∧
      SumInto x (operandValue s o) c (operandLength o) s t := by
  obtain ⟨t, ht, hvalue, hzero, hcarry, hrest⟩ := resultInto_answers (fun a b => addResult a b c) x o s
  refine ⟨t, ht, ?_, ?_, ?_, hrest⟩
  · rw [hvalue, addResult_value_toNat]
  · rw [hcarry, addResult_carry, decide_eq_true_iff]
  · rw [hzero, addResult_zero, zeroOf_iff_toNat, addResult_value_toNat]

/-- SUB and SUBC, with either operand and either CARRY in. -/
theorem resultInto_differenceInto (c : Bool) (x : Reg) (o : Operand) (s : State) :
    ∃ t, resultInto (fun a b => subResult a b c) x o s = .next t ∧
      DifferenceInto x (operandValue s o) c (operandLength o) s t := by
  obtain ⟨t, ht, hvalue, hzero, hcarry, hrest⟩ := resultInto_answers (fun a b => subResult a b c) x o s
  refine ⟨t, ht, ?_, ?_, ?_, hrest⟩
  · rw [hvalue, subResult_value_int]
  · rw [hcarry, subResult_carry_iff]
  · rw [hzero, subResult_zero, zeroOf_iff_toNat, ← subResult_value_int, Int.natCast_eq_zero]

/-- COMP with either operand. -/
theorem flagsFrom_comparesWith (x : Reg) (o : Operand) (s : State) :
    ∃ t, flagsFrom compResult x o s = .next t ∧ ComparesWith x (operandValue s o) (operandLength o) s t := by
  obtain ⟨t, ht, hzero, hcarry, hrest⟩ := flagsFrom_answers compResult x o s
  refine ⟨t, ht, ?_, ?_, hrest⟩
  · rw [hzero]; exact beq_iff_eq
  · rw [hcarry]; exact decide_eq_true_iff

/-- Settles O1: the four forms are one meaning at two operands and two values of CARRY in. -/
theorem additionsGiveSumAndCarry : Obligations.AdditionsGiveSumAndCarry := fun s x y kk =>
  ⟨resultInto_sumInto false x (.literal kk) s, resultInto_sumInto false x (.reg y) s,
    resultInto_sumInto s.carry x (.literal kk) s, resultInto_sumInto s.carry x (.reg y) s⟩

/-- Settles O2: the four forms are one meaning at two operands and two values of CARRY in. -/
theorem subtractionsGiveDifferenceAndBorrow : Obligations.SubtractionsGiveDifferenceAndBorrow := fun s x y kk =>
  ⟨resultInto_differenceInto false x (.literal kk) s, resultInto_differenceInto false x (.reg y) s,
    resultInto_differenceInto s.carry x (.literal kk) s, resultInto_differenceInto s.carry x (.reg y) s⟩

/-- Settles O3: the two forms are one meaning at two operands. -/
theorem comparisonsWriteFlagsOnly : Obligations.ComparisonsWriteFlagsOnly := fun s x y kk =>
  ⟨flagsFrom_comparesWith x (.literal kk) s, flagsFrom_comparesWith x (.reg y) s⟩

/-! ### Comparison and subtraction -/

/-- A difference is 0 exactly when the operands are equal. -/
theorem compResult_zero (a b : Word) : (compResult a b).zero = (subResult a b false).zero := by
  have ha := a.isLt
  have hb := b.isLt
  have hiff : (a == b) = true ↔ (subResult a b false).value.toNat = 0 := by
    rw [beq_iff_eq, ← BitVec.toNat_inj, subResult_value_toNat, Bool.toNat_false]
    omega
  rw [Bool.eq_iff_iff, subResult_zero, zeroOf_iff_toNat, ← hiff]
  rfl

/-- A difference borrows exactly when the first operand is less. -/
theorem compResult_carry (a b : Word) : (compResult a b).carry = (subResult a b false).carry := by
  rw [subResult_carry, Bool.toNat_false, Nat.add_zero]
  rfl

/-- The comparison and the subtraction of the same operands leave the same flags. -/
theorem flagsFrom_comp_eq_resultInto_sub {x : Reg} {o : Operand} {s t u : State}
    (ht : flagsFrom compResult x o s = .next t) (hu : resultInto (fun a b => subResult a b false) x o s = .next u) :
    t.zero = u.zero ∧ t.carry = u.carry := by
  obtain rfl := Host.Outcome.next.inj ht
  obtain rfl := Host.Outcome.next.inj hu
  exact ⟨compResult_zero _ _, compResult_carry _ _⟩

/-- Settles O4: the flags of a comparison are those of the difference, in both forms. -/
theorem compareLeavesTheFlagsOfSubtract : Obligations.CompareLeavesTheFlagsOfSubtract := fun _ _ _ _ _ _ =>
  ⟨flagsFrom_comp_eq_resultInto_sub, flagsFrom_comp_eq_resultInto_sub⟩

/-! ### Two words at a time -/

/-- A result into rXL, then one into rXH that takes the first one's CARRY, where rXL is none of the operands of the second:
each half takes its own function of the old registers. -/
theorem exec_low_then_high {low high : Instr} {f : Word → Word → AluResult} {g : Bool → Word → Word → AluResult}
    {xl xh yl yh : Reg} (hlow : ∀ s, exec low s = resultInto f xl (.reg yl) s)
    (hhigh : ∀ s, exec high s = resultInto (g s.carry) xh (.reg yh) s) (hx : xl ≠ xh) (hy : xl ≠ yh) (s : State) :
    ∃ t u, exec low s = .next t ∧ exec high t = .next u ∧ u.reg xl = (f (s.reg xl) (s.reg yl)).value ∧
      u.reg xh = (g (f (s.reg xl) (s.reg yl)).carry (s.reg xh) (s.reg yh)).value ∧
      u.carry = (g (f (s.reg xl) (s.reg yl)).carry (s.reg xh) (s.reg yh)).carry := by
  obtain ⟨t, ht, htl, -, htc, -, htregs, -⟩ := resultInto_answers f xl (.reg yl) s
  obtain ⟨u, hu, huh, -, huc, -, huregs, -⟩ := resultInto_answers (g t.carry) xh (.reg yh) t
  have hth : t.reg xh = s.reg xh := htregs xh (by simpa using hx.symm)
  have hty : t.reg yh = s.reg yh := htregs yh (by simpa using hy.symm)
  have hul : u.reg xl = t.reg xl := huregs xl (by simpa using hx)
  refine ⟨t, u, (hlow s).trans ht, (hhigh t).trans hu, hul.trans htl, ?_, ?_⟩
  · rw [huh, htc, operandValue, operandValue, hth, hty]
  · rw [huc, htc, operandValue, operandValue, hth, hty]

/-- Settles O5: the two sums, each with its carry out weighted, added up. -/
theorem addThenAddcyAddsThirtyTwoBits : Obligations.AddThenAddcyAddsThirtyTwoBits := by
  intro s xl xh yl yh hx hy
  obtain ⟨t, u, ht, hu, hl, hh, hc⟩ :=
    exec_low_then_high (low := .addReg xl yl) (high := .addcyReg xh yh) (f := fun a b => addResult a b false)
      (g := fun c a b => addResult a b c) (fun _ => rfl) (fun _ => rfl) hx hy s
  refine ⟨t, u, ht, hu, ?_⟩
  have hlow := addResult_total (s.reg xl) (s.reg yl) false
  have hhigh := addResult_total (s.reg xh) (s.reg yh) (addResult (s.reg xl) (s.reg yl) false).carry
  rw [Bool.toNat_false] at hlow
  rw [hl, hh, hc]
  omega

/-- Settles O6: the two differences, each with its borrow weighted, added up. -/
theorem subThenSubcSubtractsThirtyTwoBits : Obligations.SubThenSubcSubtractsThirtyTwoBits := by
  intro s xl xh yl yh hx hy
  obtain ⟨t, u, ht, hu, hl, hh, hc⟩ :=
    exec_low_then_high (low := .subReg xl yl) (high := .subcReg xh yh) (f := fun a b => subResult a b false)
      (g := fun c a b => subResult a b c) (fun _ => rfl) (fun _ => rfl) hx hy s
  refine ⟨t, u, ht, hu, ?_⟩
  have hlow := subResult_total (s.reg xl) (s.reg yl) false
  have hhigh := subResult_total (s.reg xh) (s.reg yh) (subResult (s.reg xl) (s.reg yl) false).carry
  rw [Bool.toNat_false] at hlow
  rw [hl, hh, hc]
  omega

end Sys2Proof.Machine
end

section
/-! PROOFS. The load and logical instructions (`41_logical.md`). -/

namespace Sys2Proof

/-- The two words of format RI as numbers (`30_encoding.md` R81, R83). -/
theorem encodeRI_toNat (op : BitVec 7) (x : Reg) (w2 : Word) :
    (encodeRI op x w2).map BitVec.toNat = [32768 + 256 * op.toNat + x.val, w2.toNat] := by
  simp only [encodeRI, List.map_cons, List.map_nil, word1_toNat, Bool.toNat_true, Fin.val_zero, Nat.mul_zero,
    Nat.mul_one, Nat.add_zero]

end Sys2Proof

namespace Sys2Proof.Machine

/-- LOAD of a literal does not look at what rX held (`41_logical.md` R130). -/
theorem loadInto_literal_writeReg (x : Reg) (kk v : Word) (s : State) :
    loadInto x (.literal kk) (s.writeReg x v) = loadInto x (.literal kk) s := by
  simp only [loadInto, operandValue, State.writeReg_writeReg]

/-- Settles O8: the law of `loadInto` at the operand kk, and the words of format RI with `op` 0x2E. -/
theorem loadLiteralWritesOneRegisterAndNoFlag : Obligations.LoadLiteralWritesOneRegisterAndNoFlag := fun s x kk v =>
  ⟨loadInto_loadsInto x (.literal kk) s, loadInto_literal_writeReg x kk v s, encodeRI_toNat 0x2E x kk⟩

/-- AND, OR and XOR with either operand, for the operation `g` of words that is `f` bit by bit. -/
theorem resultInto_bitwiseInto {f : Bool → Bool → Bool} {g : Word → Word → Word}
    (hbit : ∀ (a b : Word) (i : Nat), i < 16 → (g a b).getLsbD i = f (a.getLsbD i) (b.getLsbD i)) (x : Reg)
    (o : Operand) (s : State) : ∃ t, resultInto (fun a b => logicResult (g a b)) x o s = .next t ∧
      BitwiseInto f x (operandValue s o) (operandLength o) s t := by
  obtain ⟨t, ht, hvalue, hzero, hcarry, hrest⟩ := resultInto_answers (fun a b => logicResult (g a b)) x o s
  refine ⟨t, ht, fun i hi => ?_, ?_, hcarry, hrest⟩
  · rw [hvalue, logicResult, hbit _ _ i hi]
  · rw [hzero, logicResult, zeroOf_iff_bits]
    exact forall₂_congr fun i hi => by rw [hbit _ _ i hi]

theorem xor_bit (a b : Word) (i : Nat) (_ : i < 16) : (a ^^^ b).getLsbD i = (a.getLsbD i ^^ b.getLsbD i) :=
  BitVec.getLsbD_xor

theorem and_bit (a b : Word) (i : Nat) (_ : i < 16) : (a &&& b).getLsbD i = (a.getLsbD i && b.getLsbD i) :=
  BitVec.getLsbD_and

theorem or_bit (a b : Word) (i : Nat) (_ : i < 16) : (a ||| b).getLsbD i = (a.getLsbD i || b.getLsbD i) :=
  BitVec.getLsbD_or

/-- XOR of a register with itself clears it: the corner case of `41_logical.md` R137. -/
theorem resultInto_xor_self (x : Reg) (s : State) : ∃ t,
    resultInto (fun a b => logicResult (a ^^^ b)) x (.reg x) s = .next t ∧ t.reg x = 0 ∧ t.zero = true ∧
      t.carry = false := by
  obtain ⟨t, ht, hvalue, hzero, hcarry, -⟩ := resultInto_answers (fun a b => logicResult (a ^^^ b)) x (.reg x) s
  have hself : s.reg x ^^^ operandValue s (.reg x) = 0 := BitVec.xor_self
  refine ⟨t, ht, hvalue.trans hself, ?_, hcarry⟩
  rw [hzero, logicResult, zeroOf_eq_true, hself]

/-- Settles O9: XOR of words is XOR of their bits; the words are of formats RI and RR. -/
theorem xorIsBitwiseAndClearsCarry : Obligations.XorIsBitwiseAndClearsCarry := fun s x y kk =>
  ⟨resultInto_bitwiseInto xor_bit x (.literal kk) s, resultInto_bitwiseInto xor_bit x (.reg y) s,
    resultInto_xor_self x s, encodeRI_toNat 0x68 x kk, encodeRR_toNat 0x6A x y⟩

/-- Settles O10: AND and OR of words are AND and OR of their bits. -/
theorem andAndOrAreBitwiseAndClearCarry : Obligations.AndAndOrAreBitwiseAndClearCarry := fun s x y kk =>
  ⟨resultInto_bitwiseInto and_bit x (.literal kk) s, resultInto_bitwiseInto and_bit x (.reg y) s,
    resultInto_bitwiseInto or_bit x (.literal kk) s, resultInto_bitwiseInto or_bit x (.reg y) s⟩

/-! ### TEST -/

/-- The exclusive OR over a list is 1 exactly for an odd count, from either start. -/
theorem foldl_xor_eq_odd_countP (p : Nat → Bool) (l : List Nat) (b : Bool) :
    l.foldl (fun q i => q ^^ p i) b = (b ^^ decide (l.countP p % 2 = 1)) := by
  induction l generalizing b with
  | nil => simp
  | cons i l ih =>
    rw [List.foldl_cons, ih, List.countP_cons, Bool.xor_assoc]
    congr 1
    cases p i with
    | false => simp
    | true =>
      have hodd : (l.countP p + 1) % 2 = 1 ↔ ¬ l.countP p % 2 = 1 := by omega
      rw [if_pos rfl, decide_eq_decide.2 hodd, decide_not, Bool.true_xor]

/-- `parity` is 1 for an odd number of 1 bits (`41_logical.md` R138, D11). -/
theorem parity_iff (v : Word) : parity v = true ↔ (List.range 16).countP (fun i => v.getLsbD i) % 2 = 1 := by
  rw [parity, foldl_xor_eq_odd_countP, Bool.false_xor, decide_eq_true_iff]

/-- TEST with either operand. -/
theorem flagsFrom_testsWith (x : Reg) (o : Operand) (s : State) :
    ∃ t, flagsFrom (fun a b => testResult (a &&& b)) x o s = .next t ∧
      TestsWith x (operandValue s o) (operandLength o) s t := by
  obtain ⟨t, ht, hzero, hcarry, hrest⟩ := flagsFrom_answers (fun a b => testResult (a &&& b)) x o s
  refine ⟨t, ht, ?_, ?_, hrest⟩
  · rw [hzero, testResult, zeroOf_iff_bits]
    exact forall₂_congr fun i hi => by rw [and_bit _ _ i hi]
  · rw [hcarry, testResult, parity_iff]
    simp only [BitVec.getLsbD_and]

/-- Settles O11: the two forms are one meaning at two operands. -/
theorem testsWriteZeroAndOddParity : Obligations.TestsWriteZeroAndOddParity := fun s x y kk =>
  ⟨flagsFrom_testsWith x (.literal kk) s, flagsFrom_testsWith x (.reg y) s⟩

end Sys2Proof.Machine
end

section
/-! PROOFS. The shift and rotate instructions (`42_shift_rotate.md`). -/

namespace Sys2Proof.Machine

/-! ### One place to the left, one place to the right -/

/-- A left shift of rX, whatever enters at bit 0. -/
theorem shiftInto_movesLeft (fill : Word → Bool → Bool) (x : Reg) (s : State) :
    ∃ t, shiftInto (fun a c => shiftLeft a (fill a c)) x s = .next t ∧
      MovesLeft x (fill (s.reg x) s.carry) s t := by
  rw [shiftInto_eq_resultInto]
  obtain ⟨t, ht, hvalue, hzero, hcarry, hrest⟩ :=
    resultInto_answers (fun a _ => shiftLeft a (fill a s.carry)) x (.reg x) s
  refine ⟨t, ht, ?_, fun i hi => ?_, hcarry, ?_, hrest⟩
  · rw [hvalue, shiftLeft_bit _ _ 0 (by omega), if_pos rfl]
  · rw [hvalue, shiftLeft_bit _ _ (i + 1) (by omega), if_neg (by omega), Nat.add_sub_cancel]
  · rw [hzero, hvalue]
    exact zeroOf_eq_true _

/-- A right shift of rX, whatever enters at bit 15. -/
theorem shiftInto_movesRight (fill : Word → Bool → Bool) (x : Reg) (s : State) :
    ∃ t, shiftInto (fun a c => shiftRight a (fill a c)) x s = .next t ∧
      MovesRight x (fill (s.reg x) s.carry) s t := by
  rw [shiftInto_eq_resultInto]
  obtain ⟨t, ht, hvalue, hzero, hcarry, hrest⟩ :=
    resultInto_answers (fun a _ => shiftRight a (fill a s.carry)) x (.reg x) s
  refine ⟨t, ht, ?_, fun i hi => ?_, hcarry, ?_, hrest⟩
  · rw [hvalue, shiftRight_bit _ _ 15 (by omega), if_pos rfl]
  · rw [hvalue, shiftRight_bit _ _ i (by omega), if_neg (by omega)]
  · rw [hzero, hvalue]
    exact zeroOf_eq_true _

/-- Settles O12: the five forms are one meaning at five values of the bit that enters. -/
theorem leftFormsMoveOnePlace : Obligations.LeftFormsMoveOnePlace := fun s x =>
  ⟨shiftInto_movesLeft (fun a _ => a.getLsbD 15) x s, shiftInto_movesLeft (fun _ _ => false) x s,
    shiftInto_movesLeft (fun _ _ => true) x s, shiftInto_movesLeft (fun _ c => c) x s,
    shiftInto_movesLeft (fun a _ => a.getLsbD 0) x s⟩

/-- Settles O13: the five forms are one meaning at five values of the bit that enters. -/
theorem rightFormsMoveOnePlace : Obligations.RightFormsMoveOnePlace := fun s x =>
  ⟨shiftInto_movesRight (fun a _ => a.getLsbD 0) x s, shiftInto_movesRight (fun _ _ => false) x s,
    shiftInto_movesRight (fun _ _ => true) x s, shiftInto_movesRight (fun _ c => c) x s,
    shiftInto_movesRight (fun a _ => a.getLsbD 15) x s⟩

/-! ### ZERO after a fill of 1 -/

theorem zeroOf_eq_false_of_bit {v : Word} {i : Nat} (hi : i < 16) (h : v.getLsbD i = true) : zeroOf v = false := by
  rw [Bool.eq_false_iff, ne_eq, zeroOf_iff_bits]
  intro hall
  exact absurd ((hall i hi).symm.trans h) Bool.false_ne_true

/-- A left shift with fill 1 leaves ZERO 0: bit 0 of the result is 1 (`42_shift_rotate.md` R153). -/
theorem shiftLeft_true_zero (a : Word) : (shiftLeft a true).zero = false :=
  zeroOf_eq_false_of_bit (i := 0) (by omega) ((shiftLeft_bit a true 0 (by omega)).trans (if_pos rfl))

/-- A right shift with fill 1 leaves ZERO 0: bit 15 of the result is 1 (`42_shift_rotate.md` R157). -/
theorem shiftRight_true_zero (a : Word) : (shiftRight a true).zero = false :=
  zeroOf_eq_false_of_bit (i := 15) (by omega) ((shiftRight_bit a true 15 (by omega)).trans (if_pos rfl))

/-- Settles O14: the bit that enters is 1, so the result is not 0. -/
theorem oneFillShiftsNeverSetZero : Obligations.OneFillShiftsNeverSetZero := by
  rintro s t x (h | h)
  · obtain rfl := Host.Outcome.next.inj h
    exact shiftLeft_true_zero _
  · obtain rfl := Host.Outcome.next.inj h
    exact shiftRight_true_zero _

/-! ### A register and CARRY as one 17-bit rotate -/

/-- Right undoes left when the bit that left comes back (`42_shift_rotate.md` R160). -/
theorem shiftRight_shiftLeft_value (a : Word) (c : Bool) :
    (shiftRight (shiftLeft a c).value (shiftLeft a c).carry).value = a := by
  refine BitVec.eq_of_getLsbD_eq fun i hi => ?_
  rw [shiftRight_bit _ _ i hi]
  by_cases h : i = 15
  · subst h
    exact if_pos rfl
  · rw [if_neg h, shiftLeft_bit _ _ (i + 1) (by omega), if_neg (by omega), Nat.add_sub_cancel]

theorem shiftRight_shiftLeft_carry (a : Word) (c d : Bool) : (shiftRight (shiftLeft a c).value d).carry = c :=
  (shiftLeft_bit a c 0 (by omega)).trans (if_pos rfl)

/-- Left undoes right when the bit that left comes back (`42_shift_rotate.md` R160). -/
theorem shiftLeft_shiftRight_value (a : Word) (c : Bool) :
    (shiftLeft (shiftRight a c).value (shiftRight a c).carry).value = a := by
  refine BitVec.eq_of_getLsbD_eq fun i hi => ?_
  rw [shiftLeft_bit _ _ i hi]
  by_cases h : i = 0
  · subst h
    exact if_pos rfl
  · rw [if_neg h, shiftRight_bit _ _ (i - 1) (by omega), if_neg (by omega), Nat.sub_add_cancel (by omega)]

theorem shiftLeft_shiftRight_carry (a : Word) (c d : Bool) : (shiftLeft (shiftRight a c).value d).carry = c :=
  (shiftRight_bit a c 15 (by omega)).trans (if_pos rfl)

/-- Two shifts of one register in a row: the second takes the value and the CARRY the first one left. -/
theorem shiftInto_then_shiftInto (f g : Word → Bool → AluResult) (x : Reg) (s : State) : ∃ t u,
    shiftInto f x s = .next t ∧ shiftInto g x t = .next u ∧
      u.reg x = (g (f (s.reg x) s.carry).value (f (s.reg x) s.carry).carry).value ∧
      u.carry = (g (f (s.reg x) s.carry).value (f (s.reg x) s.carry).carry).carry := by
  obtain ⟨t, ht, htx, -, htc, -⟩ := resultInto_answers (fun a _ => f a s.carry) x (.reg x) s
  obtain ⟨u, hu, hux, -, huc, -⟩ := resultInto_answers (fun a _ => g a t.carry) x (.reg x) t
  refine ⟨t, u, ht, hu, ?_, ?_⟩
  · rw [hux, htx, htc]
  · rw [huc, htx, htc]

/-- Settles O15: each shift brings back the bit the other moved out. -/
theorem slaAndSraUndoEachOther : Obligations.SlaAndSraUndoEachOther := by
  intro s x
  constructor
  · obtain ⟨t, u, ht, hu, hvalue, hcarry⟩ :=
      shiftInto_then_shiftInto (fun a c => shiftLeft a c) (fun a c => shiftRight a c) x s
    exact ⟨t, u, ht, hu, hvalue.trans (shiftRight_shiftLeft_value _ _),
      hcarry.trans (shiftRight_shiftLeft_carry _ _ _)⟩
  · obtain ⟨t, u, ht, hu, hvalue, hcarry⟩ :=
      shiftInto_then_shiftInto (fun a c => shiftRight a c) (fun a c => shiftLeft a c) x s
    exact ⟨t, u, ht, hu, hvalue.trans (shiftLeft_shiftRight_value _ _),
      hcarry.trans (shiftLeft_shiftRight_carry _ _ _)⟩

/-! ### Sixteen rotates -/

/-- `w` is `v` rotated `k` places to the left. -/
def RotatedBy (k : Nat) (v w : Word) : Prop := ∀ i, i < 16 → w.getLsbD ((i + k) % 16) = v.getLsbD i

theorem RotatedBy.zero (v : Word) : RotatedBy 0 v v := fun i hi => by rw [Nat.add_zero, Nat.mod_eq_of_lt hi]

theorem RotatedBy.trans {j k : Nat} {u v w : Word} (h₁ : RotatedBy j u v) (h₂ : RotatedBy k v w) :
    RotatedBy (j + k) u w := by
  intro i hi
  rw [← h₁ i hi, ← h₂ ((i + j) % 16) (Nat.mod_lt _ (by omega)), Nat.mod_add_mod, Nat.add_assoc]

/-- A rotation by a multiple of 16 places changes nothing. -/
theorem RotatedBy.eq_of_mul_sixteen {k : Nat} {v w : Word} (h : RotatedBy (16 * k) v w) : w = v := by
  refine BitVec.eq_of_getLsbD_eq fun i hi => ?_
  rw [← h i hi, Nat.add_mul_mod_self_left, Nat.mod_eq_of_lt hi]

/-- RL is a rotation by one place (`42_shift_rotate.md` R150). -/
theorem rotatedBy_shiftLeft (a : Word) : RotatedBy 1 a (shiftLeft a (a.getLsbD 15)).value := by
  intro i hi
  rw [shiftLeft_bit _ _ _ (Nat.mod_lt _ (by omega))]
  by_cases h : i = 15
  · subst h
    exact if_pos rfl
  · rw [Nat.mod_eq_of_lt (by omega), if_neg (by omega), Nat.add_sub_cancel]

/-- RR is a rotation by one place to the right, fifteen to the left (`42_shift_rotate.md` R151). -/
theorem rotatedBy_shiftRight (a : Word) : RotatedBy 15 a (shiftRight a (a.getLsbD 0)).value := by
  intro i hi
  rw [shiftRight_bit _ _ _ (Nat.mod_lt _ (by omega))]
  by_cases h : i = 0
  · subst h
    exact if_pos rfl
  · have hmod : (i + 15) % 16 = i - 1 := by omega
    rw [hmod, if_neg (by omega), Nat.sub_add_cancel (by omega)]

/-- An instruction that always answers and rotates rX by `k` places rotates it by `n * k` when executed `n` times. -/
theorem execTimes_rotatedBy {i : Instr} {x : Reg} {k : Nat}
    (h : ∀ s, ∃ t, exec i s = .next t ∧ RotatedBy k (s.reg x) (t.reg x)) (n : Nat) (s : State) :
    ∃ t, execTimes n i s = .next t ∧ RotatedBy (n * k) (s.reg x) (t.reg x) := by
  induction n generalizing s with
  | zero => exact ⟨s, rfl, by rw [Nat.zero_mul]; exact .zero _⟩
  | succ n ih =>
    obtain ⟨t, ht, hrot⟩ := h s
    obtain ⟨u, hu, hrest⟩ := ih t
    refine ⟨u, ?_, ?_⟩
    · simp only [execTimes, ht, hu]
    · rw [Nat.succ_mul, Nat.add_comm]
      exact hrot.trans hrest

/-- A one-place rotate of rX always answers. -/
theorem shiftInto_rotatedBy {f : Word → Bool → AluResult} {k : Nat} (hf : ∀ a c, RotatedBy k a (f a c).value) (x : Reg)
    (s : State) : ∃ t, shiftInto f x s = .next t ∧ RotatedBy k (s.reg x) (t.reg x) := by
  rw [shiftInto_eq_resultInto]
  obtain ⟨t, ht, hvalue, -⟩ := resultInto_answers (fun a _ => f a s.carry) x (.reg x) s
  exact ⟨t, ht, hvalue ▸ hf _ _⟩

/-- Settles O16: sixteen rotations by one place, or by fifteen, are a rotation by a multiple of sixteen. -/
theorem sixteenRotatesRestoreTheRegister : Obligations.SixteenRotatesRestoreTheRegister := by
  intro s x
  constructor
  · obtain ⟨t, ht, hrot⟩ := execTimes_rotatedBy (i := .rl x) (k := 1)
      (shiftInto_rotatedBy (fun a _ => rotatedBy_shiftLeft a) x) 16 s
    exact ⟨t, ht, hrot.eq_of_mul_sixteen⟩
  · obtain ⟨t, ht, hrot⟩ := execTimes_rotatedBy (i := .rr x) (k := 15)
      (shiftInto_rotatedBy (fun a _ => rotatedBy_shiftRight a) x) 16 s
    exact ⟨t, ht, hrot.eq_of_mul_sixteen⟩

end Sys2Proof.Machine
end

section
/-! PROOFS. Control transfer (`43_control_transfer.md`). -/

namespace Sys2Proof.Machine

/-! ### Addresses modulo 2^PC_WIDTH -/

section Wrap

variable {c : Config}

/-- A wrapped address is its own wrapped address. -/
theorem wrapPc_wrapPc (c : Config) (v : Word) : wrapPc c (wrapPc c v) = wrapPc c v :=
  wrapPc_of_fits c _ (wrapPc_fits c v)

/-- 2^PC_WIDTH divides the 2^16 of a word. -/
theorem two_pow_pcWidth_dvd (h : c.pcWidth ≤ 16) : 2 ^ c.pcWidth ∣ 2 ^ 16 := Nat.pow_dvd_pow 2 h

theorem wrapPc_add_toNat (h : c.pcWidth ≤ 16) (v : Word) (n : Nat) :
    (wrapPc c (v + BitVec.ofNat 16 n)).toNat = (v.toNat + n) % 2 ^ c.pcWidth := by
  rw [wrapPc_toNat c _ h, BitVec.toNat_add, BitVec.toNat_ofNat, Nat.mod_mod_of_dvd _ (two_pow_pcWidth_dvd h),
    Nat.add_mod, Nat.mod_mod_of_dvd _ (two_pow_pcWidth_dvd h), ← Nat.add_mod]

/-- The address before, modulo 2^PC_WIDTH: 2^16 - 1 and 2^PC_WIDTH - 1 differ by a multiple of 2^PC_WIDTH. -/
theorem wrapPc_sub_one_toNat (h : c.pcWidth ≤ 16) (v : Word) :
    (wrapPc c (v - 1)).toNat = (v.toNat + 2 ^ c.pcWidth - 1) % 2 ^ c.pcWidth := by
  obtain ⟨k, hk⟩ := two_pow_pcWidth_dvd h
  have hpos : 0 < 2 ^ c.pcWidth := by positivity
  have hk1 : 2 ^ c.pcWidth * k = 2 ^ c.pcWidth * (k - 1) + 2 ^ c.pcWidth := by
    cases k with
    | zero => omega
    | succ k => rw [Nat.add_sub_cancel, Nat.mul_succ]
  have hone : (1 : Word).toNat = 1 := rfl
  rw [wrapPc_toNat c _ h, BitVec.toNat_sub, Nat.mod_mod_of_dvd _ (two_pow_pcWidth_dvd h), hone, hk, hk1]
  have hsum : 2 ^ c.pcWidth * (k - 1) + 2 ^ c.pcWidth - 1 + v.toNat =
      v.toNat + 2 ^ c.pcWidth - 1 + 2 ^ c.pcWidth * (k - 1) := by omega
  rw [hsum, Nat.add_mul_mod_self_left]

end Wrap

/-- Settles O17: 2^PC_WIDTH divides 2^16, so that the sum of words may be reduced at the end. -/
theorem addressesAreTakenModuloPcWidth : Obligations.AddressesAreTakenModuloPcWidth := fun s v n h =>
  ⟨wrapPc_add_toNat h s.pc n, wrapPc_add_toNat h v 1, wrapPc_sub_one_toNat h v⟩

/-! ### JUMP -/

/-- A JUMP form writes `pc` alone. -/
theorem jumpsTo_of_exec_eq {i : Instr} {taken : Bool} {aaa : Word} {s : State} (h : exec i s = jumpIf taken aaa s) :
    JumpsTo i taken aaa s := by
  cases taken with
  | true => exact ⟨s.setPc aaa, h, rfl, rfl, fun _ _ => rfl, ⟨rfl, rfl⟩, ⟨rfl, rfl, rfl⟩, fun _ => rfl,
      ⟨fun _ => rfl, rfl⟩, rfl, rfl⟩
  | false => exact ⟨s.advance 2, h, rfl, rfl, keepsBeyondControl_advance s 2⟩

/-- Settles O18: the five forms are one meaning at five conditions. -/
theorem jumpsWriteOnlyThePc : Obligations.JumpsWriteOnlyThePc := fun _ _ =>
  ⟨jumpsTo_of_exec_eq rfl, jumpsTo_of_exec_eq rfl, jumpsTo_of_exec_eq rfl, jumpsTo_of_exec_eq rfl,
    jumpsTo_of_exec_eq rfl⟩

/-! ### CALL and RETURN -/

/-- Replacing the stack and `pc` keeps everything else. -/
theorem keepsBeyondControl_setStack_setPc (s : State) (k : List Word) (a : Word) :
    KeepsBeyondControl s ((s.setStack k).setPc a) :=
  ⟨fun _ _ => rfl, ⟨rfl, rfl⟩, ⟨rfl, rfl, rfl⟩, fun _ => rfl, ⟨fun _ => rfl, rfl⟩, rfl, rfl⟩

/-- A CALL form pushes the address of its Word 2, which is wrapped already. -/
theorem callsTo_of_exec_eq {i : Instr} {taken : Bool} {aaa : Word} {s : State} (h : exec i s = callIf taken aaa s) :
    CallsTo i taken aaa s := by
  intro room
  cases taken with
  | true =>
    refine ⟨_, h.trans (callIf_eq_next.2 (.inl ⟨rfl, room rfl, rfl⟩)), rfl, ?_, keepsBeyondControl_setStack_setPc ..⟩
    exact congrArg (· :: s.stack) (wrapPc_wrapPc s.config _)
  | false => exact ⟨s.advance 2, h, rfl, rfl, keepsBeyondControl_advance s 2⟩

/-- Settles O19: the five forms are one meaning at five conditions. -/
theorem callsPushTheirSecondWordsAddress : Obligations.CallsPushTheirSecondWordsAddress := fun _ _ =>
  ⟨callsTo_of_exec_eq rfl, callsTo_of_exec_eq rfl, callsTo_of_exec_eq rfl, callsTo_of_exec_eq rfl,
    callsTo_of_exec_eq rfl⟩

/-- A RETURN form goes to the address after the top and removes the top. -/
theorem returnsFrom_of_exec_eq {i : Instr} {taken : Bool} {s : State} (h : exec i s = returnIf taken s) :
    ReturnsFrom i taken s := by
  intro held
  cases taken with
  | true =>
    obtain ⟨tos, below, hstack⟩ := List.exists_cons_of_ne_nil (held rfl)
    refine ⟨_, h.trans (returnIf_eq_next.2 (.inl ⟨rfl, tos, below, hstack, rfl⟩)), ?_, ?_,
      keepsBeyondControl_setStack_setPc ..⟩
    · rw [hstack]; rfl
    · rw [hstack]; rfl
  | false => exact ⟨s.advance 1, h, rfl, rfl, keepsBeyondControl_advance s 1⟩

/-- Settles O21: the five forms are one meaning at five conditions. -/
theorem returnsPopTheTopOfStack : Obligations.ReturnsPopTheTopOfStack := fun _ =>
  ⟨returnsFrom_of_exec_eq rfl, returnsFrom_of_exec_eq rfl, returnsFrom_of_exec_eq rfl, returnsFrom_of_exec_eq rfl,
    returnsFrom_of_exec_eq rfl⟩

/-- The address after the one after an address is two further on, whatever wraps in between. -/
theorem wrapPc_pcPlus_one_add_one {s : State} (h : s.config.pcWidth ≤ 16) :
    wrapPc s.config (s.pcPlus 1 + 1) = s.pcPlus 2 := by
  rw [State.pcPlus, wrapPc_wrapPc_add _ _ _ h, BitVec.add_assoc]
  rfl

/-- Settles O23: RETURN pops what CALL pushed, the address of the CALL's Word 2, and goes to the address after it. -/
theorem returnResumesAfterTheCall : Obligations.ReturnResumesAfterTheCall := by
  intro s t u aaa hwidth hcall hstack hconfig
  have htaken : callIf true aaa s = .next t := hcall
  obtain ⟨-, -, rfl⟩ | ⟨hfalse, -⟩ := callIf_eq_next.1 htaken
  · have hheld : u.stack = s.pcPlus 1 :: s.stack := by
      rw [hstack, State.setPc_stack, State.setStack_stack, State.pcPlus, wrapPc_wrapPc]
    refine ⟨_, returnIf_eq_next.2 (.inl ⟨rfl, _, _, hheld, rfl⟩), ?_, rfl⟩
    rw [State.setPc_pc, hconfig, wrapPc_pcPlus_one_add_one hwidth]
  · cases hfalse

/-! ### The faults of the stack -/

/-- A taken CALL form on a full stack (`43_control_transfer.md` R186). -/
theorem callIf_of_full {taken : Bool} {aaa : Word} {s : State} (ht : taken = true)
    (hfull : s.config.stackDepth ≤ s.sp) : callIf taken aaa s = .fault .stackOverflow := by
  simp only [callIf, ht, if_true, State.push_eq_error.2 ⟨hfull, rfl⟩]

/-- A taken RETURN form on an empty stack (`43_control_transfer.md` R186). -/
theorem returnIf_of_empty {taken : Bool} {s : State} (ht : taken = true) (hempty : s.stack = []) :
    returnIf taken s = .fault .stackUnderflow := by
  simp only [returnIf, ht, if_true, State.pop_eq_error.2 ⟨hempty, rfl⟩]

/-- RETDIS and RETEN on an empty stack (`43_control_transfer.md` R186, `45_system.md` R223). -/
theorem returnFromInterrupt_of_empty {enable : Bool} {s : State} (hempty : s.stack = []) :
    returnFromInterrupt enable s = .fault .stackUnderflow := by
  simp only [returnFromInterrupt, State.pop_eq_error.2 ⟨hempty, rfl⟩]

/-- Settles O20: the push of a taken CALL form faults. -/
theorem takenCallsOnAFullStackFault : Obligations.TakenCallsOnAFullStackFault := fun _ _ hfull =>
  ⟨callIf_of_full rfl hfull.ge, fun h => callIf_of_full h hfull.ge,
    fun h => callIf_of_full (congrArg not h) hfull.ge, fun h => callIf_of_full h hfull.ge,
    fun h => callIf_of_full (congrArg not h) hfull.ge⟩

/-- Settles O22: the pop of a taken RETURN form, of RETDIS and of RETEN faults. -/
theorem takenReturnsOnAnEmptyStackFault : Obligations.TakenReturnsOnAnEmptyStackFault := by
  intro s hsp
  have hempty : s.stack = [] := List.length_eq_zero_iff.1 hsp
  exact ⟨returnIf_of_empty rfl hempty, fun h => returnIf_of_empty h hempty,
    fun h => returnIf_of_empty (congrArg not h) hempty, fun h => returnIf_of_empty h hempty,
    fun h => returnIf_of_empty (congrArg not h) hempty, returnFromInterrupt_of_empty hempty,
    returnFromInterrupt_of_empty hempty⟩

end Sys2Proof.Machine
end

section
/-! PROOFS. The ports and the scratchpad (`44_io_and_scratchpad.md`). -/

namespace Sys2Proof.Machine

/-! ### The ports -/

/-- An INPUT takes the datum of its port into rX and logs one event. -/
theorem inputsFrom_of_exec_eq {i : Instr} {x : Reg} {o : Operand} {s : State} (h : exec i s = inputInto x o s) :
    InputsFrom i x (operandValue s o) (operandLength o) s := by
  refine ⟨_, h.trans (inputInto_eq x o s), ?_, rfl, rfl, rfl, fun r hr => ?_, ⟨rfl, rfl⟩, ⟨rfl, rfl, rfl⟩, rfl,
    fun _ => rfl, fun _ => rfl, rfl⟩
  · rw [State.advance_reg, State.writeReg_reg, if_pos rfl]
  · rw [State.advance_reg, State.writeReg_reg, if_neg (List.ne_of_not_mem_cons hr)]
    rfl

/-- The datum is the first the environment lists, if it lists one. -/
theorem State.portDatum_of_listed {s : State} {v : Word} {l : List Word} (h : s.env.data = v :: l) (p : Word) :
    s.portDatum p = v := by
  simp only [State.portDatum, h]

/-- Settles O24: the two forms are one meaning at two operands. -/
theorem inputsTakeTheEnvironmentsDatum : Obligations.InputsTakeTheEnvironmentsDatum := fun _ _ y pp =>
  ⟨inputsFrom_of_exec_eq (o := .reg y) rfl, inputsFrom_of_exec_eq (o := .literal pp) rfl,
    fun _ _ h => State.portDatum_of_listed h pp⟩

/-- An OUTPUT logs one event and writes nothing else. -/
theorem outputsTo_of_exec_eq {i : Instr} {x : Reg} {o : Operand} {s : State} (h : exec i s = outputFrom x o s) :
    OutputsTo i x (operandValue s o) (operandLength o) s :=
  ⟨_, h, rfl, rfl, rfl, fun _ _ => rfl, ⟨rfl, rfl⟩, ⟨rfl, rfl, rfl⟩, rfl, fun _ => rfl, fun _ => rfl, rfl⟩

/-- Settles O25: the two forms are one meaning at two operands. -/
theorem outputsAppendOneEvent : Obligations.OutputsAppendOneEvent := fun _ _ y pp =>
  ⟨outputsTo_of_exec_eq (o := .reg y) rfl, outputsTo_of_exec_eq (o := .literal pp) rfl⟩

/-! ### FETCH and STORE -/

/-- A FETCH from a cell that holds a value loads it. -/
theorem fetchesFrom_of_exec_eq {i : Instr} {x : Reg} {o : Operand} {s : State} (h : exec i s = fetchInto x o s) :
    FetchesFrom i x (operandValue s o) (operandLength o) s := fun v hrange hcell =>
  ⟨_, h.trans (fetchInto_eq_next.2 ⟨v, hrange, hcell, rfl⟩), loadsInto_writeReg_advance s x v (operandLength o)⟩

/-- Settles O26: the two forms are one meaning at two operands. -/
theorem fetchesReadTheCellAddressed : Obligations.FetchesReadTheCellAddressed := fun _ _ y kk =>
  ⟨fetchesFrom_of_exec_eq (o := .literal kk) rfl, fetchesFrom_of_exec_eq (o := .reg y) rfl⟩

/-- A STORE within the scratchpad writes the cell addressed and no other. -/
theorem storesTo_of_exec_eq {i : Instr} {x : Reg} {o : Operand} {s : State} (h : exec i s = storeFrom x o s) :
    StoresTo i x (operandValue s o) (operandLength o) s := by
  intro hrange
  refine ⟨_, h.trans (storeFrom_eq_next.2 ⟨hrange, rfl⟩), ?_, fun a ha => ?_, rfl, fun _ _ => rfl, ⟨rfl, rfl⟩,
    ⟨rfl, rfl, rfl⟩, rfl, ⟨fun _ => rfl, rfl⟩, rfl, rfl⟩
  · rw [State.advance_cell, State.setRam_write_cell, if_pos rfl]
  · rw [State.advance_cell, State.setRam_write_cell, if_neg ha]

/-- Settles O27: the two forms are one meaning at two operands. -/
theorem storesWriteOneCell : Obligations.StoresWriteOneCell := fun _ _ y kk =>
  ⟨storesTo_of_exec_eq (o := .literal kk) rfl, storesTo_of_exec_eq (o := .reg y) rfl⟩

/-- A FETCH faults as its read of the scratchpad does. -/
theorem fetchInto_of_error {x : Reg} {o : Operand} {s : State} {f : Fault}
    (h : s.ramRead (operandValue s o) = .error f) : fetchInto x o s = .fault f := by
  simp only [fetchInto, h]

/-- A STORE faults as its write of the scratchpad does. -/
theorem storeFrom_of_error {x : Reg} {o : Operand} {s : State} {f : Fault}
    (h : s.ramWrite (operandValue s o) (s.reg x) = .error f) : storeFrom x o s = .fault f := by
  simp only [storeFrom, h]

/-- Settles O28: the range check of both accesses, at either operand. -/
theorem accessesBeyondTheScratchpadFault : Obligations.AccessesBeyondTheScratchpadFault := by
  intro s x y a hbeyond
  have hread : s.ramRead a = .error .scratchpadOutOfRange := State.ramRead_eq_error.2 (.inl ⟨hbeyond, rfl⟩)
  have hwrite : s.ramWrite a (s.reg x) = .error .scratchpadOutOfRange := State.ramWrite_eq_error.2 ⟨hbeyond, rfl⟩
  refine ⟨fetchInto_of_error (o := .literal a) hread, storeFrom_of_error (o := .literal a) hwrite, ?_⟩
  rintro rfl
  exact ⟨fetchInto_of_error (o := .reg y) hread, storeFrom_of_error (o := .reg y) hwrite⟩

/-- Settles O29: the read of a cell that holds no value faults, at either operand. -/
theorem fetchOfAnUnwrittenCellFaults : Obligations.FetchOfAnUnwrittenCellFaults := by
  intro s x y a hrange hcell
  have hread : s.ramRead a = .error .readOfUnwritten := State.ramRead_eq_error.2 (.inr ⟨hrange, hcell, rfl⟩)
  refine ⟨fetchInto_of_error (o := .literal a) hread, ?_⟩
  rintro rfl
  exact fetchInto_of_error (o := .reg y) hread

/-- A FETCH right after a STORE to the address it reads, whichever operands give that address (`20_memory.md` R56). -/
theorem store_then_fetch {i j : Instr} {x z : Reg} {o o' : Operand} {s : State}
    (hi : exec i s = storeFrom x o s) (hj : ∀ t, exec j t = fetchInto z o' t)
    (hrange : (operandValue s o).toNat < 2 ^ s.config.scratchAddrBits)
    (hsame : ∀ t : State, t.regs = s.regs → operandValue t o' = operandValue s o) :
    ∃ t u, exec i s = .next t ∧ exec j t = .next u ∧ u.reg z = s.reg x := by
  obtain ⟨t, ht, hcell, -, -, hregs, -, -, -, ⟨-, hconfig⟩, -⟩ := storesTo_of_exec_eq hi hrange
  have haddr := hsame t (State.regs_ext s t fun r => hregs r List.not_mem_nil)
  obtain ⟨u, hu, hload, -⟩ := fetchesFrom_of_exec_eq (hj t) (s.reg x) (by rw [haddr, hconfig]; exact hrange)
    (by rw [haddr]; exact hcell)
  exact ⟨t, u, ht, hu, hload⟩

/-- Settles O30: the FETCH reads the cell the STORE wrote, whichever of the two operands names the address. -/
theorem storeThenFetchReturnsTheValue : Obligations.StoreThenFetchReturnsTheValue := by
  rintro s x y z _ hrange rfl
  have hreg : ∀ t : State, t.regs = s.regs → t.reg y = s.reg y := fun t h => congrArg (·[y]) h
  simp only [List.forall_mem_cons, List.not_mem_nil, false_implies, implies_true, and_true]
  refine ⟨⟨?_, ?_⟩, ?_, ?_⟩
  · exact store_then_fetch (o := .reg y) (o' := .reg y) rfl (fun _ => rfl) hrange hreg
  · exact store_then_fetch (o := .reg y) (o' := .literal (s.reg y)) rfl (fun _ => rfl) hrange fun _ _ => rfl
  · exact store_then_fetch (o := .literal (s.reg y)) (o' := .reg y) rfl (fun _ => rfl) hrange hreg
  · exact store_then_fetch (o := .literal (s.reg y)) (o' := .literal (s.reg y)) rfl (fun _ => rfl) hrange
      fun _ _ => rfl

end Sys2Proof.Machine
end

section
/-! PROOFS. The system instructions and the interrupt (`45_system.md`, `60_exceptions.md`). -/

namespace Sys2Proof.Machine

/-- Settles O32: both are `setIe` and `advance`, which write IE and `pc` alone. -/
theorem disintAndEnintWriteInterruptEnable : Obligations.DisintAndEnintWriteInterruptEnable := fun _ =>
  ⟨⟨_, rfl, rfl, rfl, rfl, rfl, fun _ _ => rfl, ⟨rfl, rfl⟩, rfl, fun _ => rfl, ⟨fun _ => rfl, rfl⟩, rfl, rfl⟩,
    ⟨_, rfl, rfl, rfl, rfl, rfl, fun _ _ => rfl, ⟨rfl, rfl⟩, rfl, fun _ => rfl, ⟨fun _ => rfl, rfl⟩, rfl, rfl⟩⟩

/-- A return from interrupt with an entry on the stack. -/
theorem returnsFromInterrupt_of_exec_eq {i : Instr} {enable : Bool} {s : State}
    (h : exec i s = returnFromInterrupt enable s) : ReturnsFromInterrupt i enable s := fun tos below held =>
  ⟨_, h.trans (returnFromInterrupt_eq_next.2 ⟨tos, below, held, rfl⟩), rfl, rfl, rfl, rfl, rfl, rfl, rfl,
    fun _ _ => rfl, fun _ => rfl, ⟨fun _ => rfl, rfl⟩, rfl, rfl⟩

/-- Settles O33: the two are one meaning at two values of IE. -/
theorem interruptReturnsRestoreTheFlags : Obligations.InterruptReturnsRestoreTheFlags := fun _ =>
  ⟨returnsFromInterrupt_of_exec_eq rfl, returnsFromInterrupt_of_exec_eq rfl⟩

/-- Settles O34: with IE and `irq` 1 the step is the entry, which answers when the stack has room. -/
theorem interruptEntrySavesAndVectors : Obligations.InterruptEntrySavesAndVectors := by
  intro s hie hirq room
  have hstep := step_of_interrupt (State.interruptTaken_iff.2 ⟨hie, hirq⟩)
  exact ⟨_, hstep.trans (enterInterrupt_eq_next.2 ⟨room, rfl⟩), rfl, rfl, rfl, rfl, rfl, ⟨rfl, rfl⟩, fun _ _ => rfl,
    fun _ => rfl, ⟨fun _ => rfl, rfl⟩, rfl, rfl⟩

/-- Interrupt entry on a full stack (`60_exceptions.md` R245, `43_control_transfer.md` R186). -/
theorem enterInterrupt_of_full {s : State} (hfull : s.config.stackDepth ≤ s.sp) :
    enterInterrupt s = .fault .stackOverflow := by
  simp only [enterInterrupt, State.push_eq_error.2 ⟨hfull, rfl⟩]

/-- Settles O35: the push of the entry faults. -/
theorem interruptEntryOnAFullStackFaults : Obligations.InterruptEntryOnAFullStackFaults := fun s hie hirq hfull =>
  (step_of_interrupt (State.interruptTaken_iff.2 ⟨hie, hirq⟩)).trans
    (enterInterrupt_of_full (s := s.tick) hfull.ge)

/-- A step that is an interrupt entry and answers is the entry, said once. -/
theorem step_of_interrupt_eq_next {s t : State} (hint : s.interruptTaken = true) (h : step s = .next t) :
    t = ((((s.tick.setStack (wrapPc s.config (s.pc - 1) :: s.stack)).setSaved s.zero s.carry).setIe false).setPc
      s.config.intVector) := by
  rw [step_of_interrupt hint] at h
  obtain ⟨-, ht⟩ := enterInterrupt_eq_next.1 h
  exact ht

/-- The address after the one an entry pushes is the interrupted instruction's (`60_exceptions.md` R247). -/
theorem State.Inv.wrapPc_pushed_add_one {s : State} (hs : s.Inv) :
    wrapPc s.config (wrapPc s.config (s.pc - 1) + 1) = s.pc := by
  obtain ⟨-, hwidth, -⟩ := hs.legal
  rw [wrapPc_wrapPc_add _ _ _ hwidth, BitVec.sub_add_cancel, wrapPc_of_fits _ _ hs.pc_fits]

/-- Settles O36: the return pops what the entry pushed, and takes the flags the entry saved. -/
theorem interruptReturnResumesTheProgram : Obligations.InterruptReturnResumesTheProgram := by
  intro s t u hs hie hirq hstep hstack hzero hcarry hconfig
  obtain rfl := step_of_interrupt_eq_next (State.interruptTaken_iff.2 ⟨hie, hirq⟩) hstep
  have hheld : u.stack = wrapPc s.config (s.pc - 1) :: s.stack := hstack
  have hpc : wrapPc u.config (wrapPc s.config (s.pc - 1) + 1) = s.pc := by
    rw [hconfig, hs.wrapPc_pushed_add_one]
  exact ⟨⟨_, returnFromInterrupt_eq_next.2 ⟨_, _, hheld, rfl⟩, hpc, hzero, hcarry, rfl, rfl⟩,
    ⟨_, returnFromInterrupt_eq_next.2 ⟨_, _, hheld, rfl⟩, hpc, hzero, hcarry, rfl, rfl⟩,
    ⟨_, returnIf_eq_next.2 (.inl ⟨rfl, _, _, hheld, rfl⟩), hpc, rfl, rfl, rfl, rfl⟩⟩

end Sys2Proof.Machine
end

section
/-! PROOFS. What no instruction but the listed ones changes (`10_state.md` section 1): each frame is read off the changes
of the shapes. -/

namespace Sys2Proof.Machine

/-! ### What a shape may write -/

/-- The register a shape writes. -/
def Shape.destination : Shape → Option Reg
  | .alu _ x _ | .aluCarry _ x _ | .load x _ | .input x _ | .fetch x _ => some x
  | _ => none

/-- Whether a shape writes ZERO and CARRY. -/
def Shape.writesFlags : Shape → Bool
  | .alu _ _ _ | .aluCarry _ _ _ | .flags _ _ _ | .interruptReturn _ => true
  | _ => false

/-- The value a shape writes to IE, if it writes IE. -/
def Shape.ieWritten : Shape → Option Bool
  | .setIe b | .interruptReturn b => some b
  | _ => none

/-- Whether a shape pushes or pops, taken. -/
def Shape.usesStack : Shape → Bool
  | .call _ _ | .ret _ | .interruptReturn _ => true
  | _ => false

/-- Whether a shape is an access to a port. -/
def Shape.usesPorts : Shape → Bool
  | .input _ _ | .output _ _ => true
  | _ => false

/-- Whether a shape writes the scratchpad. -/
def Shape.writesRam : Shape → Bool
  | .store _ _ => true
  | _ => false

theorem destination_shapeOf (i : Instr) : (shapeOf i).destination = Machine.destination i := by
  cases i <;> rfl

theorem writesFlags_shapeOf (i : Instr) : (shapeOf i).writesFlags = Machine.writesFlags i := by
  cases i <;> rfl

theorem usesStack_shapeOf (i : Instr) : (shapeOf i).usesStack = Machine.usesStack i := by
  cases i <;> rfl

/-! ### What each change keeps -/

section Change

variable {s t : State} {sh : Shape}

theorem Change.keepsReg (h : Change s sh t) {r : Reg} (hr : sh.destination ≠ some r) : t.reg r = s.reg r := by
  have hne : ∀ x : Reg, some x ≠ some r → r ≠ x := fun x hx h => hx (congrArg some h.symm)
  cases h with
  | alu f x o | aluCarry f x o => rw [State.advance_reg, State.setResult_reg, if_neg (hne x hr)]
  | load x o | fetch x o v held => rw [State.advance_reg, State.writeReg_reg, if_neg (hne x hr)]
  | input x o =>
    rw [State.advance_reg, State.writeReg_reg, if_neg (hne x hr)]
    rfl
  | _ => rfl

theorem Change.keepsFlags (h : Change s sh t) (hw : sh.writesFlags = false) : KeepsFlags s t := by
  cases h with
  | alu | aluCarry | flags | interruptReturn => cases hw
  | _ => exact ⟨rfl, rfl⟩

theorem Change.ie_eq (h : Change s sh t) : t.ie = sh.ieWritten.getD s.ie := by
  cases h <;> rfl

theorem Change.keepsSaved (h : Change s sh t) : t.savedZero = s.savedZero ∧ t.savedCarry = s.savedCarry := by
  cases h <;> exact ⟨rfl, rfl⟩

theorem Change.keepsProgram (h : Change s sh t) : t.prog = s.prog ∧ t.config = s.config := by
  cases h <;> exact ⟨rfl, rfl⟩

theorem Change.keepsStack (h : Change s sh t) (hu : sh.usesStack = false) : t.stack = s.stack := by
  cases h with
  | call | ret | interruptReturn => cases hu
  | _ => rfl

/-- The stack is as before, or has one entry more, or one less (`10_state.md` R25). -/
theorem Change.stack_cases (h : Change s sh t) :
    t.stack = s.stack ∨ (∃ v, t.stack = v :: s.stack) ∨ ∃ v, s.stack = v :: t.stack := by
  cases h with
  | call cond aaa room => exact .inr (.inl ⟨_, rfl⟩)
  | ret cond tos below held => exact .inr (.inr ⟨tos, held⟩)
  | interruptReturn b tos below held => exact .inr (.inr ⟨tos, held⟩)
  | _ => exact .inl rfl

theorem Change.keepsPorts (h : Change s sh t) (hp : sh.usesPorts = false) : KeepsPorts s t := by
  cases h with
  | input | output => cases hp
  | _ => exact ⟨rfl, rfl⟩

theorem Change.keepsRam (h : Change s sh t) (hr : sh.writesRam = false) : KeepsRam s t := by
  cases h with
  | store => cases hr
  | _ => exact fun _ => rfl

/-- One `in` event of an INPUT (`10_state.md` R29). -/
theorem Change.input_event {x : Reg} {o : Operand} (h : Change s (.input x o) t) :
    ∃ p v, t.portLog = s.portLog ++ [.input p v] := by
  cases h
  exact ⟨_, _, rfl⟩

/-- One `out` event of an OUTPUT (`10_state.md` R29). -/
theorem Change.output_event {x : Reg} {o : Operand} (h : Change s (.output x o) t) :
    ∃ p v, t.portLog = s.portLog ++ [.output p v] := by
  cases h
  exact ⟨_, _, rfl⟩

end Change

/-! ### The whole machine -/

/-- Settles O39: no change writes SZ or SC. -/
theorem onlyInterruptEntryWritesTheSavedFlags : Obligations.OnlyInterruptEntryWritesTheSavedFlags := by
  intro s t h hint
  obtain ⟨hentry, -⟩ | ⟨-, i, -, hexec⟩ := step_cases h
  · exact absurd (hint.symm.trans hentry) Bool.false_ne_true
  · exact (change_of_exec hexec).keepsSaved

/-- Settles O45: the registers of each change, and of the entry. -/
theorem onlyTheDestinationRegisterChanges : Obligations.OnlyTheDestinationRegisterChanges := by
  constructor
  · intro i s t h r hr
    exact (change_of_exec h).keepsReg (by rwa [destination_shapeOf])
  · intro s t hint h
    rw [step_of_interrupt_eq_next hint h]
    exact fun _ _ => rfl

/-- Settles O46: the stack of each change, and of the entry. -/
theorem onlyCallsAndReturnsTouchTheStack : Obligations.OnlyCallsAndReturnsTouchTheStack := by
  constructor
  · intro i s t h
    have hchange := change_of_exec h
    exact ⟨fun hu => hchange.keepsStack (by rwa [usesStack_shapeOf]), hchange.stack_cases⟩
  · intro s t hint h
    rw [step_of_interrupt_eq_next hint h]
    exact ⟨_, rfl⟩

/-- Settles O47: the port log, the environment and the scratchpad of each change, and of the entry. -/
theorem oneEventPerPortInstructionAndStoresAloneWrite :
    Obligations.OneEventPerPortInstructionAndStoresAloneWrite := by
  constructor
  · intro i s t h
    have hchange := change_of_exec h
    cases i with
    | inputInd | inputDir => exact ⟨hchange.input_event, hchange.keepsRam rfl⟩
    | outputInd | outputDir => exact ⟨hchange.output_event, hchange.keepsRam rfl⟩
    | storeDir | storeInd => exact hchange.keepsPorts rfl
    | _ => exact ⟨hchange.keepsPorts rfl, hchange.keepsRam rfl⟩
  · intro s t hint h
    rw [step_of_interrupt_eq_next hint h]
    exact ⟨rfl, fun _ => rfl⟩

/-- Settles O48: no change and no entry writes program memory or a parameter. -/
theorem stepsNeverChangeTheProgram : Obligations.StepsNeverChangeTheProgram := by
  intro s t h
  obtain ⟨hint, -⟩ | ⟨-, i, -, hexec⟩ := step_cases h
  · rw [step_of_interrupt_eq_next hint h]
    exact ⟨rfl, rfl⟩
  · exact (change_of_exec hexec).keepsProgram

/-! ### Nothing is refused -/

section Refusal

variable {s : State} {r : Refusal}

theorem callIf_ne_refused (taken : Bool) (aaa : Word) : callIf taken aaa s ≠ .refused r := by
  unfold callIf
  split
  · split <;> nofun
  · nofun

theorem returnIf_ne_refused (taken : Bool) : returnIf taken s ≠ .refused r := by
  unfold returnIf
  split
  · split <;> nofun
  · nofun

theorem returnFromInterrupt_ne_refused (enable : Bool) : returnFromInterrupt enable s ≠ .refused r := by
  unfold returnFromInterrupt
  split <;> nofun

theorem enterInterrupt_ne_refused : enterInterrupt s ≠ .refused r := by
  unfold enterInterrupt
  split <;> nofun

theorem fetchInto_ne_refused (x : Reg) (o : Operand) : fetchInto x o s ≠ .refused r := by
  unfold fetchInto
  split <;> nofun

theorem storeFrom_ne_refused (x : Reg) (o : Operand) : storeFrom x o s ≠ .refused r := by
  unfold storeFrom
  split <;> nofun

theorem Shape.run_ne_refused (sh : Shape) : sh.run s ≠ .refused r := by
  cases sh with
  | fetch x o => exact fetchInto_ne_refused x o
  | store x o => exact storeFrom_ne_refused x o
  | jump cond aaa =>
    show jumpIf (condHolds s cond) aaa s ≠ _
    rw [jumpIf_eq]
    nofun
  | call cond aaa => exact callIf_ne_refused _ aaa
  | ret cond => exact returnIf_ne_refused _
  | interruptReturn b => exact returnFromInterrupt_ne_refused b
  | _ => nofun

end Refusal

/-- Settles O50: no shape refuses, nor does the entry. -/
theorem stepsNeverRefuse : Obligations.StepsNeverRefuse := by
  intro s r
  cases hint : s.interruptTaken with
  | true =>
    rw [step_of_interrupt hint]
    exact enterInterrupt_ne_refused
  | false =>
    cases hfetch : s.fetchInstr with
    | error f =>
      rw [step_of_fetch_error hint hfetch]
      nofun
    | ok i =>
      rw [step_of_fetch hint hfetch, exec_eq_run]
      exact (shapeOf i).run_ne_refused

end Sys2Proof.Machine
end

section
/-! PROOFS. Reset (`70_reset_and_hazards.md`, `10_state.md` section 2). -/

namespace Sys2Proof.Machine

/-- Settles O51: the fields of `State.resetWith`, and the values `State.reset` takes for it. -/
theorem resetLeavesTheStatedValues : Obligations.ResetLeavesTheStatedValues := fun _ _ _ =>
  ⟨rfl, rfl, rfl, rfl, rfl, rfl, rfl⟩

/-- After reset the invariant needs the parameters and the memories placed looked at alone. -/
theorem State.Inv.resetWith {c : Config} {u : PowerUp} {e : Env} (hlegal : c.legal)
    (hram : Memory.wf .scratchpad u.ram) (hramFits : ∀ d ∈ u.ram, d.1 < 2 ^ c.scratchAddrBits)
    (hprog : Memory.wf .program u.prog) (hprogFits : ∀ d ∈ u.prog, d.1 < c.progSize) :
    (State.resetWith c u e).Inv where
  legal := hlegal
  pc_fits := Nat.two_pow_pos c.pcWidth
  stack_held := Nat.zero_le _
  entries_fit := fun _ hv => absurd hv List.not_mem_nil
  ram_wf := hram
  ram_fits := hramFits
  prog_wf := hprog
  prog_fits := hprogFits

theorem Config.default_legal : Config.default.legal := by decide

/-- Settles O52: `State.reset` is the case of the default parameters and empty memories. -/
theorem resetMeetsTheInvariant : Obligations.ResetMeetsTheInvariant :=
  ⟨fun _ _ _ => State.Inv.resetWith, State.Inv.resetWith Config.default_legal (Memory.wf_nil _)
    (fun _ hd => absurd hd List.not_mem_nil) (Memory.wf_nil _) (fun _ hd => absurd hd List.not_mem_nil)⟩

end Sys2Proof.Machine
end

section
/-! PROOFS. What is not read has no effect: an outcome is the same but for the bits laid over a state that the instruction
does not read (`10_state.md` R22 to R24, `60_exceptions.md` R243). -/

namespace Sys2Proof.Machine

/-! ### Overlays -/

/-- Values for ZERO, CARRY, IE and the coming samples of `irq`; `none` leaves the state's own. -/
structure Overlay where
  zero : Option Bool := none
  carry : Option Bool := none
  ie : Option Bool := none
  irqs : Option (List Bool) := none

/-- The state with the values laid over it. -/
def State.overlay (o : Overlay) (s : State) : State :=
  { s with
    zero := o.zero.getD s.zero
    carry := o.carry.getD s.carry
    ie := o.ie.getD s.ie
    env := { s.env with irqs := o.irqs.getD s.env.irqs } }

/-- A function of the next state, where there is one. -/
def mapNext (g : State → State) : Result → Result
  | .next t => .next (g t)
  | .fault f => .fault f
  | .refused r => .refused r

theorem setFlags_zero_eq_overlay (s : State) (b : Bool) : s.setFlags b s.carry = s.overlay { zero := some b } := rfl

theorem setFlags_carry_eq_overlay (s : State) (b : Bool) : s.setFlags s.zero b = s.overlay { carry := some b } := rfl

theorem setIe_eq_overlay (s : State) (b : Bool) : s.setIe b = s.overlay { ie := some b } := rfl

theorem presentIrqs_eq_overlay (s : State) (l : List Bool) : presentIrqs s l = s.overlay { irqs := some l } := rfl

/-! ### What a shape reads of the flags -/

/-- Whether a condition looks at ZERO. -/
def Cond.readsZero : Cond → Bool
  | .z | .nz => true
  | _ => false

/-- Whether a condition looks at CARRY. -/
def Cond.readsCarry : Cond → Bool
  | .c | .nc => true
  | _ => false

/-- Whether a shape reads ZERO. -/
def Shape.readsZero : Shape → Bool
  | .jump cond _ | .call cond _ | .ret cond => cond.readsZero
  | _ => false

/-- Whether a shape reads CARRY. -/
def Shape.readsCarry : Shape → Bool
  | .aluCarry _ _ _ => true
  | .jump cond _ | .call cond _ | .ret cond => cond.readsCarry
  | _ => false

theorem readsZero_shapeOf (i : Instr) : (shapeOf i).readsZero = Machine.readsZero i := by
  cases i <;> rfl

theorem readsCarry_shapeOf (i : Instr) : (shapeOf i).readsCarry = Machine.readsCarry i := by
  cases i <;> rfl

/-- What is left of an overlay once the shape has written the flags and IE that it writes. -/
def Shape.leaves (sh : Shape) (o : Overlay) : Overlay where
  zero := if sh.writesFlags then none else o.zero
  carry := if sh.writesFlags then none else o.carry
  ie := if sh.ieWritten.isSome then none else o.ie
  irqs := o.irqs

section Commute

variable {s : State} {o : Overlay}

theorem condHolds_overlay {cond : Cond} (hz : o.zero = none ∨ cond.readsZero = false)
    (hc : o.carry = none ∨ cond.readsCarry = false) : condHolds (s.overlay o) cond = condHolds s cond := by
  cases cond with
  | always => rfl
  | c | nc => simp only [condHolds, State.overlay, hc.resolve_right Bool.noConfusion, Option.getD_none]
  | z | nz => simp only [condHolds, State.overlay, hz.resolve_right Bool.noConfusion, Option.getD_none]

theorem jumpIf_overlay (taken : Bool) (aaa : Word) :
    jumpIf taken aaa (s.overlay o) = mapNext (State.overlay o) (jumpIf taken aaa s) := by
  cases taken <;> rfl

theorem callIf_overlay (taken : Bool) (aaa : Word) :
    callIf taken aaa (s.overlay o) = mapNext (State.overlay o) (callIf taken aaa s) := by
  cases taken with
  | false => rfl
  | true =>
    obtain hfull | room := le_or_gt s.config.stackDepth s.sp
    · rw [callIf_of_full rfl hfull]
      exact callIf_of_full rfl hfull
    · rw [callIf_eq_next.2 (.inl ⟨rfl, room, rfl⟩)]
      exact callIf_eq_next.2 (.inl ⟨rfl, room, rfl⟩)

theorem returnIf_overlay (taken : Bool) :
    returnIf taken (s.overlay o) = mapNext (State.overlay o) (returnIf taken s) := by
  cases taken with
  | false => rfl
  | true =>
    cases hstack : s.stack with
    | nil =>
      rw [returnIf_of_empty rfl hstack]
      exact returnIf_of_empty rfl hstack
    | cons tos below =>
      rw [returnIf_eq_next.2 (.inl ⟨rfl, tos, below, hstack, rfl⟩)]
      exact returnIf_eq_next.2 (.inl ⟨rfl, tos, below, hstack, rfl⟩)

/-- A return from interrupt writes the flags and IE, whatever was laid over them. -/
theorem returnFromInterrupt_overlay (enable : Bool) : returnFromInterrupt enable (s.overlay o) =
    mapNext (State.overlay { irqs := o.irqs }) (returnFromInterrupt enable s) := by
  cases hstack : s.stack with
  | nil =>
    rw [returnFromInterrupt_of_empty hstack]
    exact returnFromInterrupt_of_empty hstack
  | cons tos below =>
    rw [returnFromInterrupt_eq_next.2 ⟨tos, below, hstack, rfl⟩]
    exact returnFromInterrupt_eq_next.2 ⟨tos, below, hstack, rfl⟩

theorem operandValue_overlay (p : Operand) : operandValue (s.overlay o) p = operandValue s p := by
  cases p <;> rfl

theorem fetchInto_overlay (x : Reg) (p : Operand) :
    fetchInto x p (s.overlay o) = mapNext (State.overlay o) (fetchInto x p s) := by
  have hread : (s.overlay o).ramRead (operandValue (s.overlay o) p) = s.ramRead (operandValue s p) := by
    rw [operandValue_overlay]
    rfl
  simp only [fetchInto, hread]
  cases s.ramRead (operandValue s p) <;> rfl

theorem storeFrom_overlay (x : Reg) (p : Operand) :
    storeFrom x p (s.overlay o) = mapNext (State.overlay o) (storeFrom x p s) := by
  have hvalue := operandValue_overlay (s := s) (o := o) p
  obtain hbeyond | hrange := le_or_gt (2 ^ s.config.scratchAddrBits) (operandValue s p).toNat
  · rw [storeFrom_of_error (State.ramWrite_eq_error.2 ⟨hbeyond, rfl⟩)]
    exact storeFrom_of_error (State.ramWrite_eq_error.2 ⟨hvalue ▸ hbeyond, rfl⟩)
  · rw [storeFrom_eq_next.2 ⟨hrange, rfl⟩]
    exact storeFrom_eq_next.2 ⟨hvalue ▸ hrange, hvalue ▸ rfl⟩

/-- With values laid over flags it does not read, over IE and over the samples of `irq`, a shape has the same outcome but
for those of the values that it does not write. -/
theorem Shape.run_overlay {sh : Shape} (hz : o.zero = none ∨ sh.readsZero = false)
    (hc : o.carry = none ∨ sh.readsCarry = false) :
    sh.run (s.overlay o) = mapNext (State.overlay (sh.leaves o)) (sh.run s) := by
  cases sh with
  | aluCarry f x p =>
    have hnone : o.carry = none := hc.resolve_right Bool.noConfusion
    have hcarry : (s.overlay o).carry = s.carry := by rw [State.overlay, hnone, Option.getD_none]
    show resultInto (f (s.overlay o).carry) x p (s.overlay o) = _
    rw [hcarry]
    rfl
  | jump cond aaa =>
    show jumpIf (condHolds (s.overlay o) cond) aaa (s.overlay o) = _
    rw [condHolds_overlay hz hc]
    exact jumpIf_overlay _ aaa
  | call cond aaa =>
    show callIf (condHolds (s.overlay o) cond) aaa (s.overlay o) = _
    rw [condHolds_overlay hz hc]
    exact callIf_overlay _ aaa
  | ret cond =>
    show returnIf (condHolds (s.overlay o) cond) (s.overlay o) = _
    rw [condHolds_overlay hz hc]
    exact returnIf_overlay _
  | fetch x p => exact fetchInto_overlay x p
  | store x p => exact storeFrom_overlay x p
  | interruptReturn b => exact returnFromInterrupt_overlay b
  | alu | flags | load | input | output | nop | setIe => rfl

/-- The same of an instruction. -/
theorem exec_overlay {i : Instr} (hz : o.zero = none ∨ readsZero i = false)
    (hc : o.carry = none ∨ readsCarry i = false) :
    exec i (s.overlay o) = mapNext (State.overlay ((shapeOf i).leaves o)) (exec i s) := by
  rw [exec_eq_run, exec_eq_run]
  exact Shape.run_overlay (by rwa [readsZero_shapeOf]) (by rwa [readsCarry_shapeOf])

end Commute
end Sys2Proof.Machine
end

section
/-! PROOFS. IE and the masked interrupt input (`10_state.md` R24, `60_exceptions.md` R243, R244). -/

namespace Sys2Proof.Machine

/-! ### IE -/

/-- With IE the other way an instruction has the same outcome but for IE. -/
theorem exec_setIe (i : Instr) (s : State) (b : Bool) :
    exec i (s.setIe b) = mapNext (State.overlay ((shapeOf i).leaves { ie := some b })) (exec i s) := by
  rw [setIe_eq_overlay]
  exact exec_overlay (.inl rfl) (.inl rfl)

/-- Nothing but IE is left of a value laid over IE, so that writing IE back undoes it. -/
theorem setIe_overlay_leaves (sh : Shape) (t : State) (b : Bool) :
    (t.overlay (sh.leaves { ie := some b })).setIe t.ie = t := by
  simp only [Shape.leaves, ite_self]
  rfl

/-- The fetch does not read IE. -/
theorem setIe_fetchInstr (s : State) (b : Bool) : (s.setIe b).fetchInstr = s.fetchInstr :=
  State.fetchInstr_congr rfl rfl fun _ => rfl

/-- Settles O38: the value each change and the entry write, and the overlay of IE. -/
theorem whatWritesAndReadsInterruptEnable : Obligations.WhatWritesAndReadsInterruptEnable := by
  refine ⟨fun i s t h => ?_, fun s t hint h => ?_, fun i s t b h => ?_, fun i s b f h => ?_, setIe_fetchInstr,
    fun s hirq => ⟨?_, fun i hfetch => ?_⟩⟩
  · have hie := (change_of_exec h).ie_eq
    cases i <;> exact hie
  · rw [step_of_interrupt_eq_next hint h]
    rfl
  · refine ⟨_, ?_, setIe_overlay_leaves (shapeOf i) t b⟩
    rw [exec_setIe, h, mapNext]
  · rw [exec_setIe, h, mapNext]
  · exact step_of_interrupt (State.interruptTaken_iff.2 ⟨rfl, hirq⟩)
  · exact step_of_fetch rfl ((setIe_fetchInstr s false).trans hfetch)

/-! ### The samples of `irq` -/

/-- An instruction does not look at the samples to come. -/
theorem exec_presentIrqs (i : Instr) (s : State) (l : List Bool) :
    exec i (presentIrqs s l) = mapNext (presentIrqs · l) (exec i s) := by
  have hleaves : ∀ t : State, t.overlay ((shapeOf i).leaves { irqs := some l }) = presentIrqs t l := by
    intro t
    simp only [Shape.leaves, ite_self]
    rfl
  rw [presentIrqs_eq_overlay, exec_overlay (.inl rfl) (.inl rfl)]
  exact congrArg (mapNext · (exec i s)) (funext hleaves)

/-- With IE 0 the sample a step takes has no effect on it (`60_exceptions.md` R243). -/
theorem step_presentIrqs_of_masked {s : State} (hie : s.ie = false) (a b : Bool) (l m : List Bool) :
    step (presentIrqs s (a :: l)) = mapNext (presentIrqs · l) (step (presentIrqs s (b :: m))) := by
  have hmasked : ∀ k, (presentIrqs s k).interruptTaken = false := by
    intro k
    show (s.ie && (presentIrqs s k).irqNow) = false
    rw [hie, Bool.false_and]
  have hfetch : ∀ k, (presentIrqs s k).fetchInstr = s.fetchInstr := fun k => State.setEnv_fetchInstr s _
  cases hf : s.fetchInstr with
  | error f =>
    rw [step_of_fetch_error (hmasked _) ((hfetch _).trans hf), step_of_fetch_error (hmasked _) ((hfetch _).trans hf)]
    rfl
  | ok i =>
    rw [step_of_fetch (hmasked _) ((hfetch _).trans hf), step_of_fetch (hmasked _) ((hfetch _).trans hf)]
    exact exec_presentIrqs i (presentIrqs s (b :: m)).tick l

/-- A run goes on from the next state its first step answers. -/
theorem steps_succ_of_next {s t : State} (h : step s = .next t) (n : Nat) : steps (n + 1) s = steps n t := by
  simp only [steps, h]

/-- A run is determined by the outcome of its first step, but for the samples to come. -/
theorem steps_succ_presentIrqs {s : State} (hie : s.ie = false) {n : Nat} {a b : Bool} {l m : List Bool}
    (h : ∀ t, step (presentIrqs s (a :: l)) = .next (presentIrqs t l) →
      steps n (presentIrqs t l) = steps n (presentIrqs t m)) :
    steps (n + 1) (presentIrqs s (a :: l)) = steps (n + 1) (presentIrqs s (b :: m)) := by
  have hl := step_presentIrqs_of_masked hie a a l l
  have hm := step_presentIrqs_of_masked hie b a m l
  cases hstep : step (presentIrqs s (a :: l)) with
  | next t =>
    rw [hstep] at hl hm
    rw [steps_succ_of_next (hstep.trans hl), steps_succ_of_next hm]
    exact h t (hstep.trans hl)
  | fault f =>
    rw [hstep] at hm
    simp only [steps, hstep, hm, mapNext]
  | refused r =>
    rw [hstep] at hm
    simp only [steps, hstep, hm, mapNext]

/-- Settles O37: by induction on the number of steps, each of which consumes one sample and does not look at it. -/
theorem maskedInterruptInputHasNoEffect : Obligations.MaskedInterruptInputHasNoEffect := by
  intro n
  induction n with
  | zero =>
    intro s l₁ l₂ rest h₁ h₂ _
    rw [List.length_eq_zero_iff.1 h₁, List.length_eq_zero_iff.1 h₂]
  | succ n ih =>
    intro s l₁ l₂ rest h₁ h₂ hmasked
    obtain ⟨a, l, rfl⟩ := List.exists_cons_of_length_eq_add_one h₁
    obtain ⟨b, m, rfl⟩ := List.exists_cons_of_length_eq_add_one h₂
    have hie : s.ie = false := hmasked 0 (presentIrqs s (a :: l ++ rest)) (Nat.succ_pos n) rfl
    refine steps_succ_presentIrqs hie fun t ht => ?_
    refine ih t l m rest (Nat.succ.inj h₁) (Nat.succ.inj h₂) fun k u hk hu => ?_
    exact hmasked (k + 1) u (Nat.succ_lt_succ hk) ((steps_succ_of_next ht k).trans hu)

end Sys2Proof.Machine
end

section
/-! PROOFS. Which rows write the flags and which read them (`10_state.md` R22, R23). -/

namespace Sys2Proof.Machine

/-! ### A flag that is not read -/

/-- With ZERO the other way an instruction that does not read ZERO has the same outcome but for a ZERO it does not
write. -/
theorem exec_setFlags_zero {i : Instr} (hi : readsZero i = false) (s : State) (b : Bool) :
    exec i (s.setFlags b s.carry) =
      mapNext (fun t => if writesFlags i = true then t else t.setFlags b t.carry) (exec i s) := by
  rw [setFlags_zero_eq_overlay, exec_overlay (.inr hi) (.inl rfl)]
  refine congrArg (mapNext · (exec i s)) (funext fun t => ?_)
  simp only [Shape.leaves, writesFlags_shapeOf, ite_self]
  cases writesFlags i <;> rfl

/-- With CARRY the other way an instruction that does not read CARRY has the same outcome but for a CARRY it does not
write. -/
theorem exec_setFlags_carry {i : Instr} (hi : readsCarry i = false) (s : State) (b : Bool) :
    exec i (s.setFlags s.zero b) =
      mapNext (fun t => if writesFlags i = true then t else t.setFlags t.zero b) (exec i s) := by
  rw [setFlags_carry_eq_overlay, exec_overlay (.inl rfl) (.inr hi)]
  refine congrArg (mapNext · (exec i s)) (funext fun t => ?_)
  simp only [Shape.leaves, writesFlags_shapeOf, ite_self]
  cases writesFlags i <;> rfl

/-! ### A flag that is read -/

/-- The instruction tells two states apart: it answers from both, with another `pc` or another register. -/
def TellsApart (i : Instr) (s₁ s₂ : State) : Prop :=
  ∃ t u, exec i s₁ = .next t ∧ exec i s₂ = .next u ∧ (t.pc ≠ u.pc ∨ ∃ r, t.reg r ≠ u.reg r)

theorem TellsApart.symm {i : Instr} {s₁ s₂ : State} (h : TellsApart i s₁ s₂) : TellsApart i s₂ s₁ := by
  obtain ⟨t, u, ht, hu, hne⟩ := h
  exact ⟨u, t, hu, ht, hne.imp Ne.symm fun ⟨r, hr⟩ => ⟨r, hr.symm⟩⟩

/-- The reset state at an address, with 1 on the stack. -/
def resetAt (a : Word) : State := (State.reset.setStack [1]).setPc a

/-- At the target of a two-word transfer the next address is another. -/
theorem resetAt_pcPlus_two_ne (a : Word) : (resetAt a).pcPlus 2 ≠ a := by
  intro h
  have hsum := wrapPc_add_toNat (c := (resetAt a).config) (Nat.le_refl 16) (resetAt a).pc 2
  have ha := a.isLt
  have hmod : a.toNat = (a.toNat + 2) % 2 ^ 16 := (congrArg BitVec.toNat h).symm.trans hsum
  omega

section TellsApart

variable {i : Instr} {s₁ s₂ : State} {aaa : Word}

theorem tellsApart_of_jump (h₁ : exec i s₁ = jumpIf false aaa s₁) (h₂ : exec i s₂ = jumpIf true aaa s₂)
    (hpc : s₁.pcPlus 2 ≠ aaa) : TellsApart i s₁ s₂ :=
  ⟨s₁.advance 2, s₂.setPc aaa, h₁, h₂, .inl hpc⟩

theorem tellsApart_of_call (h₁ : exec i s₁ = callIf false aaa s₁) (h₂ : exec i s₂ = callIf true aaa s₂)
    (hpc : s₁.pcPlus 2 ≠ aaa) (room : s₂.sp < s₂.config.stackDepth) : TellsApart i s₁ s₂ :=
  ⟨s₁.advance 2, _, h₁, h₂.trans (callIf_eq_next.2 (.inl ⟨rfl, room, rfl⟩)), .inl hpc⟩

theorem tellsApart_of_return {tos : Word} (h₁ : exec i s₁ = returnIf false s₁) (h₂ : exec i s₂ = returnIf true s₂)
    (hstack : s₂.stack = [tos]) (hpc : s₁.pcPlus 1 ≠ wrapPc s₂.config (tos + 1)) : TellsApart i s₁ s₂ :=
  ⟨s₁.advance 1, _, h₁, h₂.trans (returnIf_eq_next.2 (.inl ⟨rfl, tos, [], hstack, rfl⟩)), .inl hpc⟩

/-- A result that is another with CARRY the other way, on any operands. -/
theorem tellsApart_of_result {f : Bool → Word → Word → AluResult} {x : Reg} {o : Operand}
    (hi : shapeOf i = .aluCarry f x o) (hne : ∀ a b, (f false a b).value ≠ (f true a b).value) (s : State) :
    TellsApart i (s.setFlags s.zero false) (s.setFlags s.zero true) := by
  have hrun : ∀ t, exec i t = resultInto (f t.carry) x o t := fun t => by rw [exec_eq_run, hi, Shape.run]
  obtain ⟨t, ht, htx, -⟩ := resultInto_answers (f false) x o (s.setFlags s.zero false)
  obtain ⟨u, hu, hux, -⟩ := resultInto_answers (f true) x o (s.setFlags s.zero true)
  have hsame : operandValue (s.setFlags s.zero false) o = operandValue (s.setFlags s.zero true) o := by
    cases o <;> rfl
  refine ⟨t, u, (hrun _).trans ht, (hrun _).trans hu, .inr ⟨x, ?_⟩⟩
  rw [htx, hux, hsame]
  exact hne _ _

end TellsApart

theorem addResult_value_ne (a b : Word) : (addResult a b false).value ≠ (addResult a b true).value := by
  rw [ne_eq, ← BitVec.toNat_inj, addResult_value_toNat, addResult_value_toNat, Bool.toNat_false, Bool.toNat_true]
  omega

theorem subResult_value_ne (a b : Word) : (subResult a b false).value ≠ (subResult a b true).value := by
  have ha := a.isLt
  have hb := b.isLt
  rw [ne_eq, ← BitVec.toNat_inj, subResult_value_toNat, subResult_value_toNat, Bool.toNat_false, Bool.toNat_true]
  omega

theorem shiftLeft_value_ne (a : Word) : (shiftLeft a false).value ≠ (shiftLeft a true).value := by
  intro h
  have hbit := congrArg (BitVec.getLsbD · 0) h
  simp only [shiftLeft_bit _ _ 0 (by omega), if_true, Bool.false_eq_true] at hbit

theorem shiftRight_value_ne (a : Word) : (shiftRight a false).value ≠ (shiftRight a true).value := by
  intro h
  have hbit := congrArg (BitVec.getLsbD · 15) h
  simp only [shiftRight_bit _ _ 15 (by omega), if_true, Bool.false_eq_true] at hbit

/-- JUMP, CALL and RETURN on ZERO go elsewhere with ZERO the other way (`10_state.md` R22). -/
theorem tellsApart_of_readsZero (i : Instr) (hi : readsZero i = true) :
    ∃ s : State, TellsApart i (s.setFlags false s.carry) (s.setFlags true s.carry) := by
  cases i with
  | jumpZ a => exact ⟨resetAt a, tellsApart_of_jump rfl rfl (resetAt_pcPlus_two_ne a)⟩
  | jumpNZ a => exact ⟨resetAt a, TellsApart.symm (tellsApart_of_jump rfl rfl (resetAt_pcPlus_two_ne a))⟩
  | callZ a => exact ⟨resetAt a, tellsApart_of_call rfl rfl (resetAt_pcPlus_two_ne a) (by decide : 1 < 31)⟩
  | callNZ a => exact ⟨resetAt a, TellsApart.symm (tellsApart_of_call rfl rfl (resetAt_pcPlus_two_ne a) (by decide : 1 < 31))⟩
  | returnZ => exact ⟨resetAt 0, tellsApart_of_return rfl rfl rfl (by decide)⟩
  | returnNZ => exact ⟨resetAt 0, TellsApart.symm (tellsApart_of_return rfl rfl rfl (by decide))⟩
  | _ => cases hi

/-- ADDCY, SUBC, SLA and SRA give another result, and JUMP, CALL and RETURN on CARRY go elsewhere, with CARRY the other
way (`10_state.md` R23). -/
theorem tellsApart_of_readsCarry (i : Instr) (hi : readsCarry i = true) :
    ∃ s : State, TellsApart i (s.setFlags s.zero false) (s.setFlags s.zero true) := by
  cases i with
  | addcyImm | addcyReg => exact ⟨State.reset, tellsApart_of_result rfl addResult_value_ne _⟩
  | subcImm | subcReg => exact ⟨State.reset, tellsApart_of_result rfl subResult_value_ne _⟩
  | sla => exact ⟨State.reset, tellsApart_of_result rfl (fun a _ => shiftLeft_value_ne a) _⟩
  | sra => exact ⟨State.reset, tellsApart_of_result rfl (fun a _ => shiftRight_value_ne a) _⟩
  | jumpC a => exact ⟨resetAt a, tellsApart_of_jump rfl rfl (resetAt_pcPlus_two_ne a)⟩
  | jumpNC a => exact ⟨resetAt a, TellsApart.symm (tellsApart_of_jump rfl rfl (resetAt_pcPlus_two_ne a))⟩
  | callC a => exact ⟨resetAt a, tellsApart_of_call rfl rfl (resetAt_pcPlus_two_ne a) (by decide : 1 < 31)⟩
  | callNC a => exact ⟨resetAt a, TellsApart.symm (tellsApart_of_call rfl rfl (resetAt_pcPlus_two_ne a) (by decide : 1 < 31))⟩
  | returnC => exact ⟨resetAt 0, tellsApart_of_return rfl rfl rfl (by decide)⟩
  | returnNC => exact ⟨resetAt 0, TellsApart.symm (tellsApart_of_return rfl rfl rfl (by decide))⟩
  | _ => cases hi

/-! ### What is written -/

/-- ADDCY leaves the carry out, with either operand. -/
theorem carryAfter_add {i : Instr} {x : Reg} {o : Operand} {s : State}
    (h : exec i s = resultInto (fun a b => addResult a b s.carry) x o s) :
    CarryAfter i s (65536 ≤ (s.reg x).toNat + (operandValue s o).toNat + s.carry.toNat) :=
  ⟨_, h, by rw [State.advance_carry, State.setResult_carry, addResult_carry, decide_eq_true_iff]⟩

/-- SUBC leaves the borrow, with either operand. -/
theorem carryAfter_sub {i : Instr} {x : Reg} {o : Operand} {s : State}
    (h : exec i s = resultInto (fun a b => subResult a b s.carry) x o s) :
    CarryAfter i s ((s.reg x).toNat < (operandValue s o).toNat + s.carry.toNat) :=
  ⟨_, h, by rw [State.advance_carry, State.setResult_carry, subResult_carry, decide_eq_true_iff]⟩

/-- AND, OR and XOR leave CARRY 0. -/
theorem carry_of_logic {i : Instr} {g : Word → Word → Word} {x : Reg} {o : Operand} {s : State}
    (h : exec i s = resultInto (fun a b => logicResult (g a b)) x o s) : ∃ t, exec i s = .next t ∧ t.carry = false :=
  ⟨_, h, rfl⟩

/-- Settles O44: what each change writes, the overlay of one flag, and for each reader two states it tells apart. -/
theorem flagsAreWrittenAndReadByTheListedRows : Obligations.FlagsAreWrittenAndReadByTheListedRows := by
  refine ⟨fun i s t h hw => ?_, fun i s t b h hi => ?_, fun i s t b h hi => ?_, fun i s b f h => ⟨fun hi => ?_,
    fun hi => ?_⟩, tellsApart_of_readsZero, tellsApart_of_readsCarry, fun s x y kk => ?_, fun s x y kk => ⟨?_, ?_⟩,
    fun s t hint h => ?_⟩
  · exact (change_of_exec h).keepsFlags (by rwa [writesFlags_shapeOf])
  · rw [exec_setFlags_zero hi, h, mapNext]
  · rw [exec_setFlags_carry hi, h, mapNext]
  · rw [exec_setFlags_zero hi, h, mapNext]
  · rw [exec_setFlags_carry hi, h, mapNext]
  · exact ⟨carryAfter_add (o := .literal kk) rfl, carryAfter_add (o := .reg y) rfl,
      carryAfter_sub (o := .literal kk) rfl, carryAfter_sub (o := .reg y) rfl, ⟨_, rfl, Iff.rfl⟩, ⟨_, rfl, Iff.rfl⟩⟩
  · exact ⟨_, rfl, shiftLeft_true_zero _⟩
  · simp only [List.forall_mem_cons, List.not_mem_nil, false_implies, implies_true, and_true]
    exact ⟨carry_of_logic (o := .literal kk) rfl, carry_of_logic (o := .reg y) rfl,
      carry_of_logic (o := .literal kk) rfl, carry_of_logic (o := .reg y) rfl⟩
  · rw [step_of_interrupt_eq_next hint h]
    exact ⟨rfl, rfl, rfl, rfl⟩

end Sys2Proof.Machine
end
